-- ==== Sys2Proof/Word.lean ====
section
/-! DEFINITION. The word types of the core: the 8-bit data byte and the 16-bit address
(spec/00_scope.md R2, R8: bit 0 is the least significant bit). -/

namespace Sys2Proof

/-- `u8`: a data register, a memory cell, an opcode or operand byte (00_scope R2). -/
abbrev Byte := BitVec 8

/-- `u16`: PC, SP and every memory address (00_scope R2). Addition on it wraps at 65,536, which is
the wrap of 20_memory R44. -/
abbrev Addr := BitVec 16

end Sys2Proof
end

