-- ==== Sys2Proof/Syntax.lean ====
section
/-! DEFINITION. The eight instructions, one constructor per row of spec/opcode_table.json, and the
eight addressing modes that name them (spec/30_encoding.md R71, R72, R74). -/

namespace Sys2Proof

/-- The eight addressing modes (40_fetch_access_addressing R104, R114). An instruction of this block
is the one load in one of them. -/
inductive Mode where
  | imm | zp | zpX | abs | absX | absY | indX | indY
  deriving DecidableEq, Repr

/-- The instructions, with the operand bytes of their format: `d` for F2 (30_encoding R71), `lo` and
`hi` for F3 (R72). Every operand byte takes every value (R81). -/
inductive Instr where
  /-- `LDA #d` (41_load R132). -/
  | ldaImm (d : Byte)
  /-- `LDA d` (41_load R133). -/
  | ldaZp (d : Byte)
  /-- `LDA d,X` (41_load R134). -/
  | ldaZpX (d : Byte)
  /-- `LDA a` (41_load R135). -/
  | ldaAbs (lo hi : Byte)
  /-- `LDA a,X` (41_load R136). -/
  | ldaAbsX (lo hi : Byte)
  /-- `LDA a,Y` (41_load R137). -/
  | ldaAbsY (lo hi : Byte)
  /-- `LDA (d,X)` (41_load R138). -/
  | ldaIndX (d : Byte)
  /-- `LDA (d),Y` (41_load R139). -/
  | ldaIndY (d : Byte)
  deriving DecidableEq, Repr

/-- The addressing mode an instruction names (30_encoding R74). -/
def Instr.mode : Instr → Mode
  | .ldaImm _ => .imm
  | .ldaZp _ => .zp
  | .ldaZpX _ => .zpX
  | .ldaAbs _ _ => .abs
  | .ldaAbsX _ _ => .absX
  | .ldaAbsY _ _ => .absY
  | .ldaIndX _ => .indX
  | .ldaIndY _ => .indY

end Sys2Proof
end

