-- ==== Sys2Proof/Config.lean ====
section
/-! DEFINITION. The parameters the spec gives a model (spec/00_scope.md R3) as plain data: the
machine's operations take them as an argument, so that a claim can quantify over them. The default
values stand in Sys2Proof/Decode.lean (`defaultParams`). No value of this hardware is opaque: what
the spec leaves open is a parameter here, or a retained flag of the launch state (log entry 1). -/

namespace Sys2Proof

/-- The eight opcode bytes, one per addressing mode (00_scope R3, 30_encoding R74). -/
structure OpcodeMap where
  /-- `OPC_LDA_IMM` -/
  imm : Byte
  /-- `OPC_LDA_ZP` -/
  zp : Byte
  /-- `OPC_LDA_ZPX` -/
  zpX : Byte
  /-- `OPC_LDA_ABS`, the one value the source fixes: `0xAD` -/
  abs : Byte
  /-- `OPC_LDA_ABSX` -/
  absX : Byte
  /-- `OPC_LDA_ABSY` -/
  absY : Byte
  /-- `OPC_LDA_INDX` -/
  indX : Byte
  /-- `OPC_LDA_INDY` -/
  indY : Byte
  deriving DecidableEq, Repr

/-- The parameters of 00_scope R3. `CYC`'s type is fixed to the default, the integers (log entry 9). -/
structure Params where
  /-- The opcode map. -/
  opcodes : OpcodeMap
  /-- `PTR_HI_WRAP`: the high byte of a zero-page pointer is read within page 0. -/
  ptrHiWrap : Bool
  /-- `CHARGE_PTR_READS`: the two pointer reads of the indirect modes are charged to CYC. -/
  chargePtrReads : Bool
  deriving DecidableEq, Repr

end Sys2Proof
end

