-- ==== Sys2Proof/WellFormed.lean ====
section
/-! DEFINITION. Well-formedness. An instruction's operands have no reserved value (spec/30_encoding.md
R81), so every term of `Instr` is well formed; what can be ill formed is the opcode map a machine is
given (spec/00_scope.md R3, the constraint on the opcode parameters). -/

namespace Sys2Proof

/-- The eight opcode bytes in the table's order. -/
def OpcodeMap.bytes (o : OpcodeMap) : List Byte :=
  [o.imm, o.zp, o.zpX, o.abs, o.absX, o.absY, o.indX, o.indY]

/-- "the eight values are pairwise distinct and none equals `0xFF`" (00_scope R3), and
`OPC_LDA_ABS` is the value the source fixes, `0xAD`. -/
abbrev OpcodeMap.WellFormed (o : OpcodeMap) : Prop :=
  o.bytes.Nodup ∧ 0xFF#8 ∉ o.bytes ∧ o.abs = 0xAD#8

/-- A parameter setting is well formed when its opcode map is; both values of each choice are
allowed (00_scope R3). -/
abbrev Params.WellFormed (P : Params) : Prop := P.opcodes.WellFormed

/-- Every value of `d`, `lo` and `hi` is legal in every format (30_encoding R81): no instruction is
ill formed. One arm per constructor, so that a new instruction needs its own answer. -/
def Instr.wf : Instr → Bool
  | .ldaImm _ => true
  | .ldaZp _ => true
  | .ldaZpX _ => true
  | .ldaAbs _ _ => true
  | .ldaAbsX _ _ => true
  | .ldaAbsY _ _ => true
  | .ldaIndX _ => true
  | .ldaIndY _ => true

end Sys2Proof
end

