-- ==== Sys2Proof/Decode.lean ====
section
/-! DEFINITION. The decoder, total on any list of bytes and refusing by name, and the encoder, both
from the opcode map and the formats of spec/30_encoding.md (R71 to R77); the default parameters
(spec/00_scope.md R3), which stand here so that a later repair can reach them. -/

namespace Sys2Proof

/-- The default parameters (00_scope R3). `0xAD` is the source's; the seven other opcode bytes are
the spec's defaults from general knowledge (PRESUMED, log entry 6); the wrap of the pointer's high
byte and the uncharged pointer reads are the spec's choices (log entries 7 and 8). -/
def defaultParams : Params where
  opcodes :=
    { imm := 0xA9#8, zp := 0xA5#8, zpX := 0xB5#8, abs := 0xAD#8
      absX := 0xBD#8, absY := 0xB9#8, indX := 0xA1#8, indY := 0xB1#8 }
  ptrHiWrap := true
  chargePtrReads := false

/-- The opcode byte of a mode (30_encoding R74). -/
def opcodeOf (o : OpcodeMap) : Mode → Byte
  | .imm => o.imm
  | .zp => o.zp
  | .zpX => o.zpX
  | .abs => o.abs
  | .absX => o.absX
  | .absY => o.absY
  | .indX => o.indX
  | .indY => o.indY

/-- The mode an opcode byte selects, compared as a whole (30_encoding R73), in the order of
42_sequencer R150; none for an unknown opcode (R76). -/
def modeOf (o : OpcodeMap) (op : Byte) : Option Mode :=
  if op = o.imm then some .imm
  else if op = o.zp then some .zp
  else if op = o.zpX then some .zpX
  else if op = o.abs then some .abs
  else if op = o.absX then some .absX
  else if op = o.absY then some .absY
  else if op = o.indX then some .indX
  else if op = o.indY then some .indY
  else none

/-- The number of operand bytes of a mode: the second column of the table of 40 R104. -/
def operandBytes : Mode → Nat
  | .imm => 1
  | .zp => 1
  | .zpX => 1
  | .abs => 2
  | .absX => 2
  | .absY => 2
  | .indX => 1
  | .indY => 1

/-- The instruction's length in bytes, a function of the opcode alone (30_encoding R77). -/
def instrLength (m : Mode) : Nat := 1 + operandBytes m

/-- Why a byte list is refused. -/
inductive DecodeError where
  /-- The list ends before the instruction does. The engine never meets it: it reads its bytes from
  a memory that has no end (20_memory R44). -/
  | truncated
  /-- The first byte is not one of the eight opcode values (30_encoding R76). -/
  | unknownOpcode (op : Byte)
  deriving DecidableEq, Repr

/-- What decoding answers: an instruction and the bytes after it, or a refusal by name. -/
abbrev Decoded := Except DecodeError (Instr × List Byte)

/-- The operand byte `d` of format F2 (30_encoding R71). -/
def operandF2 (mk : Byte → Instr) : List Byte → Decoded
  | d :: rest => .ok (mk d, rest)
  | [] => .error .truncated

/-- The operand bytes `lo`, `hi` of format F3, low byte first (30_encoding R72). -/
def operandF3 (mk : Byte → Byte → Instr) : List Byte → Decoded
  | lo :: hi :: rest => .ok (mk lo hi, rest)
  | [_] => .error .truncated
  | [] => .error .truncated

/-- The operand bytes a mode takes (30_encoding R74, R75). -/
def decodeOperands : Mode → List Byte → Decoded
  | .imm => operandF2 .ldaImm
  | .zp => operandF2 .ldaZp
  | .zpX => operandF2 .ldaZpX
  | .abs => operandF3 .ldaAbs
  | .absX => operandF3 .ldaAbsX
  | .absY => operandF3 .ldaAbsY
  | .indX => operandF2 .ldaIndX
  | .indY => operandF2 .ldaIndY

/-- "A decoder reads the opcode, looks it up, and fetches 1 or 2 more bytes" (30_encoding R77). -/
def decode (o : OpcodeMap) : List Byte → Decoded
  | [] => .error .truncated
  | op :: rest =>
    match modeOf o op with
    | some m => decodeOperands m rest
    | none => .error (.unknownOpcode op)

/-- The operand bytes of an instruction, in memory order (30_encoding R71, R72). -/
def operandsOf : Instr → List Byte
  | .ldaImm d => [d]
  | .ldaZp d => [d]
  | .ldaZpX d => [d]
  | .ldaAbs lo hi => [lo, hi]
  | .ldaAbsX lo hi => [lo, hi]
  | .ldaAbsY lo hi => [lo, hi]
  | .ldaIndX d => [d]
  | .ldaIndY d => [d]

/-- The bytes of an instruction, opcode first (30_encoding R70). -/
def encode (o : OpcodeMap) (i : Instr) : List Byte := opcodeOf o i.mode :: operandsOf i

/-- The three bytes of a table word, first byte in bits 7..0; bits at `nbits` and above are 0. Three
bytes is the longest instruction (30_encoding R70). -/
def tableBytes (nbits w : Nat) : List Byte :=
  let v := w % 2 ^ nbits
  [BitVec.ofNat 8 v, BitVec.ofNat 8 (v / 256), BitVec.ofNat 8 (v / 65536)]

/-- The instruction the decoder reads from a word of spec/opcode_table.json, under the default
parameters. -/
def decodeTableWord (nbits w : Nat) : Option Instr :=
  match decode defaultParams.opcodes (tableBytes nbits w) with
  | .ok (i, _) => some i
  | .error _ => none

end Sys2Proof
end

