-- ==== Sys2Proof/Machine/State.lean ====
section
/-! DEFINITION. The machine's state, all of spec/10_state.md R10 and nothing more (R28), as plain
data; the reasons a step can stop; the state after Reset. -/

namespace Sys2Proof.Machine

/-- The result of the most recent burst (10_state R26). -/
inductive Report where
  /-- No unknown opcode since the burst, or Reset, began. -/
  | none
  /-- The unknown opcode byte and the address it was fetched from. -/
  | unknownOpcode (op : Byte) (addr : Addr)
  deriving DecidableEq, Repr

/-- The complete state of one instance (10_state R10). -/
structure State where
  /-- PC, the address of the next instruction byte (10_state R11). -/
  pc : Addr
  /-- SP, inert storage (10_state R12). -/
  sp : Addr
  /-- A, the accumulator (10_state R13). -/
  a : Byte
  /-- X, index register (10_state R14). -/
  x : Byte
  /-- Y, index register (10_state R15). -/
  y : Byte
  /-- C, carry (10_state R17). -/
  flagC : Bool
  /-- Z, zero (10_state R18). -/
  flagZ : Bool
  /-- I, interrupt-disable, storage only (10_state R19). -/
  flagI : Bool
  /-- D, decimal, storage only (10_state R20). -/
  flagD : Bool
  /-- B, break, storage only (10_state R21). -/
  flagB : Bool
  /-- O, overflow (10_state R22). -/
  flagO : Bool
  /-- N, negative (10_state R23). -/
  flagN : Bool
  /-- CYC, the cycle-budget counter, a signed integer without bounds (10_state R25). A burst runs
  while it is positive (42_sequencer R151; before the first Reset: log entry 17). -/
  cyc : Int
  /-- REPORT (10_state R26). -/
  report : Report
  /-- MEM (10_state R27): the cells that hold something other than `0x00`, by rising address. -/
  mem : List Host.Cell
  deriving DecidableEq, Repr

/-- Faults of the machine: there is none. No access, alignment, arithmetic or protection fault exists
(60_exceptions R178); an unknown opcode is taken as the spec describes, a next state (R171). -/
inductive Fault where
  deriving DecidableEq, Repr

/-- Why the model gives no next state. -/
inductive Refusal where
  /-- Raised by an arm of `exec` that has no meaning yet. No arm raises it. Safe: the model stops. -/
  | notModelled (mnemonic : String)
  /-- Raised by `command` for a host command or access while a burst runs: a running command ends
  before the next is accepted (00_scope R5), and the spec gives a concurrent one no behaviour
  (93 U10, `refuse`). Safe: the model stops where the spec has no move. -/
  | commandDuringBurst
  deriving DecidableEq, Repr

/-- The outcome of a step or a host command on this machine. -/
abbrev Result := Host.Outcome State Fault Refusal

/-- The state right after Reset (70_reset R200, R203). C, Z, B, O and N are what Reset retains and
the spec gives no value (R201, R202); CYC is not touched by Reset (R203). DESIGN CHOICE, log
entries 1 and 2: false and 0. -/
def State.reset : State where
  pc := 0xFFFC#16
  sp := 0x0100#16
  a := 0x00#8
  x := 0x00#8
  y := 0x00#8
  flagC := false
  flagZ := false
  flagI := false
  flagD := false
  flagB := false
  flagO := false
  flagN := false
  cyc := 0
  report := .none
  mem := []

end Sys2Proof.Machine
end

