-- ==== Sys2Proof/Machine/Flags.lean ====
section
/-! DEFINITION. The status-flag updater of load-class instructions (spec/41_load.md R130). It is the
only flag computation of the block (spec/40_fetch_access_addressing.md R115). -/

namespace Sys2Proof.Machine

/-- `UpdateLoadFlags()`: `Z <- (A == 0)`, `N <- A[7]`; C, I, D, B and O are untouched (41_load R130). -/
def updateLoadFlags (s : State) : State :=
  { s with flagZ := s.a == 0x00#8, flagN := s.a[7] }

end Sys2Proof.Machine
end

