-- ==== Sys2Proof/Machine/Ops.lean ====
section
/-! DEFINITION. The named operations: memory (spec/20_memory.md), the fetch and access primitives
(spec/40_fetch_access_addressing.md R100 to R102), the one exception (spec/60_exceptions.md R171)
and Reset (spec/70_reset_and_hazards.md R200). -/

namespace Sys2Proof.Machine

/-! ### Memory as a list of cells -/

/-- What a cell that is not listed reads as: what Reset's zero-fill leaves (20_memory R43). -/
def unlistedByte : Byte := 0x00#8

/-- The canonical form: addresses strictly rising, inside the 65,536 cells (20_memory R40), and no
entry equal to what an unlisted cell reads as. -/
abbrev Memory.wf (m : List Host.Cell) : Prop :=
  m.Pairwise (fun p q => p.1 < q.1) ∧ ∀ p ∈ m, p.1 < 65536 ∧ p.2 ≠ unlistedByte

/-- The content of a cell (20_memory R41). -/
def Memory.read : List Host.Cell → Nat → Byte
  | [], _ => unlistedByte
  | (k, v) :: m, addr => if k = addr then v else Memory.read m addr

/-- Put a cell before a list whose addresses all lie above it, leaving it out when it holds what an
unlisted cell reads as. -/
def Memory.put (addr : Nat) (v : Byte) (m : List Host.Cell) : List Host.Cell :=
  if v = unlistedByte then m else (addr, v) :: m

/-- Store a byte into a cell, keeping the canonical form (20_memory R42). -/
def Memory.write : List Host.Cell → Nat → Byte → List Host.Cell
  | [], addr, v => Memory.put addr v []
  | (k, u) :: m, addr, v =>
    if addr < k then Memory.put addr v ((k, u) :: m)
    else if addr = k then Memory.put addr v m
    else (k, u) :: Memory.write m addr v

/-- `MemRead(addr, 1)` (20_memory R41). It cannot fail and changes nothing. -/
def memRead (s : State) (addr : Addr) : Byte := Memory.read s.mem addr.toNat

/-- `MemWrite(addr, 1, v)` (20_memory R42). Only the host and Reset use it; no instruction does. -/
def memWrite (s : State) (addr : Addr) (v : Byte) : State :=
  { s with mem := Memory.write s.mem addr.toNat v }

/-- The bulk reset of the AddressSpace: every byte zero (20_memory R43). In canonical form that is
the empty list. -/
def memZeroFill (s : State) : State := { s with mem := [] }

/-! ### Byte order and width -/

/-- `{h, l}`: the 16-bit value of a high and a low byte (00_scope section 8, 20_memory R45). -/
def pair (hi lo : Byte) : Addr := hi ++ lo

/-- `zext_16(v)`: zero-extension of a byte to an address (00_scope section 8). -/
def zext16 (v : Byte) : Addr := v.setWidth 16

/-! ### Fetch, Access, Peek -/

/-- One charge: CYC goes down by one, whatever its value (42_sequencer R152, R155). -/
def charge (s : State) : State := { s with cyc := s.cyc - 1 }

/-- What `Fetch()` does to the state: PC goes up by one with 16-bit wrap, CYC down by one (40 R100). -/
def consume (s : State) : State := { s with pc := s.pc + 1#16, cyc := s.cyc - 1 }

/-- `Fetch()`: the byte at PC, and the state after (40 R100). -/
def fetch (s : State) : Byte × State := (memRead s s.pc, consume s)

/-- `Access(addr)`: the byte at an address, charged; PC does not move (40 R101). -/
def access (addr : Addr) (s : State) : Byte × State := (memRead s addr, charge s)

/-- `Peek(addr)`: the read of a pointer byte, charged only under `CHARGE_PTR_READS` (40 R102). -/
def peek (P : Params) (addr : Addr) (s : State) : Byte × State :=
  if P.chargePtrReads then access addr s else (memRead s addr, s)

/-- The bytes from PC on, as many as the longest instruction has, with the address wrap of
30_encoding R72. The engine reads them from memory each time (20_memory R54, R57). -/
def fetchWindow (s : State) : List Byte :=
  [memRead s s.pc, memRead s (s.pc + 1#16), memRead s (s.pc + 2#16)]

/-! ### The exception and the end of a burst -/

/-- `raise UnknownOpcode(op, PC0)` (60_exceptions R171, R172): REPORT is set and the remaining budget
forced to zero. Nothing is saved, no flag and no mode changes, control goes to no handler. The opcode
fetch has already moved PC and charged. There is no return from it (R173): the burst ends, and the
next one starts at the byte after the opcode. -/
def raiseUnknownOpcode (op : Byte) (pc0 : Addr) (s : State) : State :=
  { s with report := .unknownOpcode op pc0, cyc := 0 }

/-- `Reset(space)` (70_reset R200, R201, R203): PC, SP, A, X, Y, D, I and all of memory are written
and REPORT cleared; C, Z, B, O, N and CYC keep their values. -/
def resetCore (s : State) : State :=
  memZeroFill
    { s with
      pc := 0xFFFC#16, sp := 0x0100#16, a := 0x00#8, x := 0x00#8, y := 0x00#8
      flagD := false, flagI := false, report := .none }

end Sys2Proof.Machine
end

