-- ==== Sys2Proof/Machine/Operands.lean ====
section
/-! DEFINITION. The addressing-mode resolver (spec/40_fetch_access_addressing.md R103 to R112). Each
resolver takes the operand bytes of its instruction and the state after the opcode fetch, and answers
the 8-bit value the instruction loads with the state after its accesses. An operand byte is given by
the instruction; its `Fetch` leaves its mark on the state through `consume` (log entry 13). -/

namespace Sys2Proof.Machine

/-- `ReadPtrZP(p)`: the little-endian pointer at zero-page location `p`, low byte first; the high
byte's address wraps within page 0 or not by `PTR_HI_WRAP` (40 R103). -/
def readPtrZp (P : Params) (p : Byte) (s : State) : Addr × State :=
  let lo := peek P (zext16 p) s
  let hi := peek P (if P.ptrHiWrap then zext16 (p + 1#8) else zext16 p + 1#16) lo.2
  (pair hi.1 lo.1, hi.2)

/-- Immediate: the operand byte is the value (40 R105). -/
def resolveImm (d : Byte) (s : State) : Byte × State := (d, consume s)

/-- Zero-page (40 R106). -/
def resolveZp (d : Byte) (s : State) : Byte × State := access (zext16 d) (consume s)

/-- Zero-page,X: the sum wraps within page 0 (40 R107). -/
def resolveZpX (d : Byte) (s : State) : Byte × State := access (zext16 (d + s.x)) (consume s)

/-- Absolute (40 R108). -/
def resolveAbs (lo hi : Byte) (s : State) : Byte × State :=
  access (pair hi lo) (consume (consume s))

/-- Absolute,X: the sum wraps at 65,536 (40 R109). -/
def resolveAbsX (lo hi : Byte) (s : State) : Byte × State :=
  access (pair hi lo + zext16 s.x) (consume (consume s))

/-- Absolute,Y (40 R110). -/
def resolveAbsY (lo hi : Byte) (s : State) : Byte × State :=
  access (pair hi lo + zext16 s.y) (consume (consume s))

/-- (Indirect,X): X is added to the pointer's location, never to the address read (40 R111). -/
def resolveIndX (P : Params) (d : Byte) (s : State) : Byte × State :=
  let ptr := readPtrZp P (d + s.x) (consume s)
  access ptr.1 ptr.2

/-- (Indirect),Y: Y is added to the base read from the pointer, never to its location (40 R112). -/
def resolveIndY (P : Params) (d : Byte) (s : State) : Byte × State :=
  let base := readPtrZp P d (consume s)
  access (base.1 + zext16 s.y) base.2

/-- The resolver: the mode's operands, effective address and data read (40 R104). -/
def resolve (P : Params) : Instr → State → Byte × State
  | .ldaImm d => resolveImm d
  | .ldaZp d => resolveZp d
  | .ldaZpX d => resolveZpX d
  | .ldaAbs lo hi => resolveAbs lo hi
  | .ldaAbsX lo hi => resolveAbsX lo hi
  | .ldaAbsY lo hi => resolveAbsY lo hi
  | .ldaIndX d => resolveIndX P d
  | .ldaIndY d => resolveIndY P d

end Sys2Proof.Machine
end

