-- ==== Sys2Proof/Machine/Load.lean ====
section
/-! DEFINITION. The load family (spec/41_load.md): the load operation and one meaning per
instruction. A meaning starts at the instruction boundary, PC at the opcode byte, and holds the whole
instruction: the opcode fetch (spec/42_sequencer.md R153), the resolver, the load. It has no
precondition on CYC: a begun instruction completes (R152). -/

namespace Sys2Proof.Machine

/-- `Load(value)`: the byte goes into A and the flags follow it (41_load R131). -/
def load (v : Byte) (s : State) : State := updateLoadFlags { s with a := v }

/-- Load the value a resolver answered, in the state it left. -/
def loadResolved (r : Byte × State) : State := load r.1 r.2

/-- The whole of an instruction under a parameter setting: opcode fetch, resolver, load. -/
def runInstr (P : Params) (i : Instr) (s : State) : State :=
  loadResolved (resolve P i (consume s))

/-- `LDA #d` (41_load R132). -/
def execLdaImm (d : Byte) (s : State) : Result :=
  .next (loadResolved (resolveImm d (consume s)))

/-- `LDA d` (41_load R133). -/
def execLdaZp (d : Byte) (s : State) : Result :=
  .next (loadResolved (resolveZp d (consume s)))

/-- `LDA d,X` (41_load R134). -/
def execLdaZpX (d : Byte) (s : State) : Result :=
  .next (loadResolved (resolveZpX d (consume s)))

/-- `LDA a` (41_load R135). -/
def execLdaAbs (lo hi : Byte) (s : State) : Result :=
  .next (loadResolved (resolveAbs lo hi (consume s)))

/-- `LDA a,X` (41_load R136). -/
def execLdaAbsX (lo hi : Byte) (s : State) : Result :=
  .next (loadResolved (resolveAbsX lo hi (consume s)))

/-- `LDA a,Y` (41_load R137). -/
def execLdaAbsY (lo hi : Byte) (s : State) : Result :=
  .next (loadResolved (resolveAbsY lo hi (consume s)))

/-- `LDA (d,X)` (41_load R138), under the default parameters. -/
def execLdaIndX (d : Byte) (s : State) : Result :=
  .next (loadResolved (resolveIndX defaultParams d (consume s)))

/-- `LDA (d),Y` (41_load R139), under the default parameters. -/
def execLdaIndY (d : Byte) (s : State) : Result :=
  .next (loadResolved (resolveIndY defaultParams d (consume s)))

end Sys2Proof.Machine
end

