-- ==== Sys2Proof/Machine/Dispatch.lean ====
section
/-! DEFINITION. The dispatch: one arm per instruction (spec/42_sequencer.md R150). -/

namespace Sys2Proof.Machine

/-- What an instruction does in a state at its boundary. -/
def exec (i : Instr) (s : State) : Host.Outcome State Fault Refusal :=
  match i with
  | .ldaImm d => Sys2Proof.Machine.execLdaImm d s
  | .ldaZp d => Sys2Proof.Machine.execLdaZp d s
  | .ldaZpX d => Sys2Proof.Machine.execLdaZpX d s
  | .ldaAbs lo hi => Sys2Proof.Machine.execLdaAbs lo hi s
  | .ldaAbsX lo hi => Sys2Proof.Machine.execLdaAbsX lo hi s
  | .ldaAbsY lo hi => Sys2Proof.Machine.execLdaAbsY lo hi s
  | .ldaIndX d => Sys2Proof.Machine.execLdaIndX d s
  | .ldaIndY d => Sys2Proof.Machine.execLdaIndY d s

end Sys2Proof.Machine
end

