-- ==== Sys2Proof/Machine/Sequencer.lean ====
section
/-! DEFINITION. The instruction sequencer (spec/42_sequencer.md): the loop test, one iteration, a
whole burst, under any parameter setting; the engine's step under the default one; placing the
bytes the next step fetches. -/

namespace Sys2Proof.Machine

/-- The start of `Execute(cycleBudget)`: the counter is loaded and the report cleared (42 R150). The
counter's old value is overwritten, so an overdraft is not carried over (R162). -/
def beginBurst (budget : Int) (s : State) : State := { s with cyc := budget, report := .none }

/-- The body of the loop of 42 R150: fetch, decode and run one instruction, or raise UnknownOpcode
with the byte at PC and its address (R153, R154). It is the body whatever CYC holds. -/
def iteration (P : Params) (s : State) : State :=
  match decode P.opcodes (fetchWindow s) with
  | .ok (i, _) => runInstr P i s
  | .error _ => raiseUnknownOpcode (memRead s s.pc) s.pc (consume s)

/-- The loop test, then one iteration if it holds (42 R151). When it fails the burst has ended and
the block is idle, holding all its state (60_exceptions R183). -/
def burstStep (P : Params) (s : State) : State := if 0 < s.cyc then iteration P s else s

/-- At most `n` loop tests in a row. -/
def runBurst (P : Params) : Nat → State → State
  | 0, s => s
  | n + 1, s => runBurst P n (burstStep P s)

/-- `Execute(cycleBudget)`, a whole burst (42 R150). Every iteration lowers CYC by at least one, so
as many loop tests as the budget has units are enough (R158). -/
def executeBurst (P : Params) (budget : Int) (s : State) : State :=
  runBurst P budget.toNat (beginBurst budget s)

/-- One move of the engine under the default parameters: the loop test and, if it holds, the
instruction at PC through `exec`, or UnknownOpcode. An idle engine stays as it is (log entry 3). -/
def engineStep (s : State) : Result :=
  if 0 < s.cyc then
    match decode defaultParams.opcodes (fetchWindow s) with
    | .ok (i, _) => exec i s
    | .error _ => .next (raiseUnknownOpcode (memRead s s.pc) s.pc (consume s))
  else .next s

/-- Store bytes at rising addresses with wrap (20_memory R44). -/
def storeBytes : List Byte → Addr → State → State
  | [], _, s => s
  | b :: bs, addr, s => storeBytes bs (addr + 1#16) (memWrite s addr b)

/-- The image write and, where no burst runs, the start of a single-step burst (60_exceptions R182)
that make the next step run a table word (log entry 4). -/
def placeFetchWord (s : State) (nbits w : Nat) : State :=
  let placed := storeBytes (tableBytes nbits w) s.pc s
  if 0 < placed.cyc then placed else beginBurst 1 placed

end Sys2Proof.Machine
end

