-- ==== Sys2Proof/Machine/Step.lean ====
section
/-! DEFINITION. The fixed names of one step and of placing the next instruction; what they do stands
in Sys2Proof/Machine/Sequencer.lean. -/

namespace Sys2Proof.Machine

/-- One step: `engineStep`. -/
def step (s : State) : Host.Outcome State Fault Refusal := engineStep s

/-- The state whose next step runs the given table word: `placeFetchWord`. -/
def State.withFetchWord (s : State) (nbits w : Nat) : State := placeFetchWord s nbits w

end Sys2Proof.Machine
end

