-- ==== Sys2Proof/Machine/Commands.lean ====
section
/-! DEFINITION. The host's side of the boundary (spec/00_scope.md R5 to R7, spec/10_state.md R31,
R32): the two commands, the image write, the presets and the read back, all between bursts. -/

namespace Sys2Proof.Machine

/-- The seven flags by name (10_state R16); no bit position is defined for any of them. -/
inductive Flag where
  | c | z | i | d | b | o | n
  deriving DecidableEq, Repr

/-- What the host can do to the machine (00_scope R5, R7; 10_state R32). -/
inductive Command where
  /-- `Reset(space)` (70_reset R200). -/
  | reset
  /-- `Execute(cycleBudget, space)` (42_sequencer R150). -/
  | execute (budget : Int)
  /-- One byte of a memory image. -/
  | writeByte (addr : Addr) (v : Byte)
  /-- Preset of PC. -/
  | presetPc (v : Addr)
  /-- Preset of SP. -/
  | presetSp (v : Addr)
  /-- Preset of A. -/
  | presetA (v : Byte)
  /-- Preset of X. -/
  | presetX (v : Byte)
  /-- Preset of Y. -/
  | presetY (v : Byte)
  /-- Preset of a flag. -/
  | presetFlag (f : Flag) (v : Bool)
  /-- Read back: every field of State and, through `memRead`, every cell (00_scope R6, 10_state R31). -/
  | readBack
  deriving DecidableEq, Repr

/-- Write one flag. -/
def setFlag : Flag → Bool → State → State
  | .c, v, s => { s with flagC := v }
  | .z, v, s => { s with flagZ := v }
  | .i, v, s => { s with flagI := v }
  | .d, v, s => { s with flagD := v }
  | .b, v, s => { s with flagB := v }
  | .o, v, s => { s with flagO := v }
  | .n, v, s => { s with flagN := v }

/-- What a command does to an idle machine; each runs to its end (00_scope R5). A read back changes
nothing: the state it answers is what the host sees. -/
def runCommand (P : Params) : Command → State → State
  | .reset, s => resetCore s
  | .execute budget, s => executeBurst P budget s
  | .writeByte addr v, s => memWrite s addr v
  | .presetPc v, s => { s with pc := v }
  | .presetSp v, s => { s with sp := v }
  | .presetA v, s => { s with a := v }
  | .presetX v, s => { s with x := v }
  | .presetY v, s => { s with y := v }
  | .presetFlag f v, s => setFlag f v s
  | .readBack, s => s

/-- One move of the host: between bursts only (00_scope R5, R7; 10_state R32). A burst is taken to run
exactly while CYC is positive; before the first Reset that is the model's choice (DESIGN CHOICE, log
entry 17), so a machine constructed with a positive CYC has its Reset refused. -/
def command (P : Params) (c : Command) (s : State) : Result :=
  if 0 < s.cyc then .refused .commandDuringBurst else .next (runCommand P c s)

end Sys2Proof.Machine
end

