-- ==== Sys2Proof/Machine/SpecLoop.lean ====
section
/-! DEFINITION. The loop body of spec/42_sequencer.md R150 transcribed as the spec writes it, every
operand byte read from memory by a `Fetch` of its own. The machine runs decode and exec instead; this
transcription is what a statement compares it with. -/

namespace Sys2Proof.Machine

/-- `ResolveIMM()` (40 R105). -/
def specResolveImm (s : State) : Byte × State := fetch s

/-- `ResolveZP()` (40 R106). -/
def specResolveZp (s : State) : Byte × State :=
  let d := fetch s
  access (zext16 d.1) d.2

/-- `ResolveZPX()` (40 R107). -/
def specResolveZpX (s : State) : Byte × State :=
  let d := fetch s
  access (zext16 (d.1 + d.2.x)) d.2

/-- The operand pair of the absolute modes: low byte, then high byte (40 R108). -/
def specFetchPair (s : State) : Addr × State :=
  let lo := fetch s
  let hi := fetch lo.2
  (pair hi.1 lo.1, hi.2)

/-- `ResolveABS()` (40 R108). -/
def specResolveAbs (s : State) : Byte × State :=
  let base := specFetchPair s
  access base.1 base.2

/-- `ResolveABSX()` (40 R109). -/
def specResolveAbsX (s : State) : Byte × State :=
  let base := specFetchPair s
  access (base.1 + zext16 base.2.x) base.2

/-- `ResolveABSY()` (40 R110). -/
def specResolveAbsY (s : State) : Byte × State :=
  let base := specFetchPair s
  access (base.1 + zext16 base.2.y) base.2

/-- `ResolveINDX()` (40 R111). -/
def specResolveIndX (P : Params) (s : State) : Byte × State :=
  let d := fetch s
  let ptr := readPtrZp P (d.1 + d.2.x) d.2
  access ptr.1 ptr.2

/-- `ResolveINDY()` (40 R112). -/
def specResolveIndY (P : Params) (s : State) : Byte × State :=
  let d := fetch s
  let base := readPtrZp P d.1 d.2
  access (base.1 + zext16 base.2.y) base.2

/-- The comparisons of the loop body: the opcode byte against the eight values in turn, then the
instruction, or else UnknownOpcode (42 R150, R153, R154). -/
def specDispatch (P : Params) (op : Byte) (pc0 : Addr) (s : State) : State :=
  if op = P.opcodes.imm then loadResolved (specResolveImm s)
  else if op = P.opcodes.zp then loadResolved (specResolveZp s)
  else if op = P.opcodes.zpX then loadResolved (specResolveZpX s)
  else if op = P.opcodes.abs then loadResolved (specResolveAbs s)
  else if op = P.opcodes.absX then loadResolved (specResolveAbsX s)
  else if op = P.opcodes.absY then loadResolved (specResolveAbsY s)
  else if op = P.opcodes.indX then loadResolved (specResolveIndX P s)
  else if op = P.opcodes.indY then loadResolved (specResolveIndY P s)
  else raiseUnknownOpcode op pc0 s

/-- The loop body: record PC0, fetch the opcode, dispatch on it (42 R150, R153). -/
def specLoopBody (P : Params) (s : State) : State :=
  let pc0 := s.pc
  let op := fetch s
  specDispatch P op.1 pc0 op.2

end Sys2Proof.Machine
end

