-- ==== Sys2Proof/Safety.lean ====
section
/-! DEFINITION. The terms statements use: outcomes, invariants, the charge table, reachable states,
and which parts of two states must agree for execution to agree. -/

namespace Sys2Proof.Machine

/-- The state an outcome goes on with, if it goes on. -/
def nextOf : Result → Option State
  | .next s => some s
  | .fault _ => none
  | .refused _ => none

/-- The cell at an address given as a natural number. -/
def cellAt (s : State) (n : Nat) : Byte := memRead s (BitVec.ofNat 16 n)

/-- The 16-bit pointer at zero-page location `p`, in integers: low byte at `p`, high byte at
`(p + 1) mod 256`, or at `p + 1` without the wrap (40 R103). -/
def pointerAt (wrap : Bool) (s : State) (p : Nat) : Nat :=
  (cellAt s p).toNat + 256 * (cellAt s (if wrap then (p + 1) % 256 else p + 1)).toNat

/-- What a load of the value `v` leaves, in integers: A, Z and N from the value (41_load R130, R131),
PC advanced by the length modulo 65,536 (42_sequencer R159), CYC lowered by the charge, and everything
else as it was (41_load R140). -/
def afterLoad (s : State) (v : Byte) (length : Nat) (cost : Int) : State :=
  { s with
    a := v
    flagZ := decide (v.toNat = 0)
    flagN := decide (128 ≤ v.toNat)
    pc := BitVec.ofNat 16 ((s.pc.toNat + length) % 65536)
    cyc := s.cyc - cost }

/-- The charge of an instruction, opcode fetch included: the two charge columns of the table of
70_reset R210. -/
def chargeOf (P : Params) : Mode → Int
  | .imm => 2
  | .zp => 3
  | .zpX => 3
  | .abs => 4
  | .absX => 4
  | .absY => 4
  | .indX => if P.chargePtrReads then 5 else 3
  | .indY => if P.chargePtrReads then 5 else 3

/-- `cmax`, the largest instruction charge (42_sequencer R156). -/
def maxCharge (P : Params) : Int := if P.chargePtrReads then 5 else 4

/-- A burst under way has no report: memory is in canonical form, and while CYC is positive REPORT is
None, because UnknownOpcode sets it only together with `CYC <- 0` (60_exceptions R171). -/
abbrev State.Inv (s : State) : Prop :=
  Memory.wf s.mem ∧ (0 < s.cyc → s.report = .none)

/-- The Z/N invariant of 10_state R24. -/
abbrev State.FlagsFollowA (s : State) : Prop :=
  s.flagZ = (s.a == 0x00#8) ∧ s.flagN = s.a[7]

/-- What a report says of the state the burst ended in, before the host acts again: the byte at the
reported address is the reported one and has no handler, PC is one past it, CYC is 0
(60_exceptions R171, R172). -/
def State.ReportTells (P : Params) (s : State) : Prop :=
  match s.report with
  | .none => True
  | .unknownOpcode op addr =>
    memRead s addr = op ∧ modeOf P.opcodes op = none ∧ s.pc = addr + 1#16 ∧ s.cyc = 0

/-- Two states agree in all that decides what execution does: PC, A, X, Y, CYC, REPORT and memory.
They may differ in SP and in all seven flags, which nothing reads (41_load R140, 30_encoding R78). -/
abbrev State.AgreeOnRead (s t : State) : Prop :=
  s.pc = t.pc ∧ s.a = t.a ∧ s.x = t.x ∧ s.y = t.y ∧ s.cyc = t.cyc ∧ s.report = t.report ∧
    s.mem = t.mem

/-- The host moves that write none of A, Z and N themselves: all but Reset, the presets of those three
and a burst, which loads into them (10_state R24, R32). -/
def Command.leavesAZN : Command → Bool
  | .reset => false
  | .execute _ => false
  | .writeByte _ _ => true
  | .presetPc _ => true
  | .presetSp _ => true
  | .presetA _ => false
  | .presetX _ => true
  | .presetY _ => true
  | .presetFlag f _ => f != .z && f != .n
  | .readBack => true

/-- What no instruction and no unknown opcode writes: SP, X, Y, C, I, D, B, O and memory (10_state
R30). -/
abbrev State.SameUntouched (s t : State) : Prop :=
  t.sp = s.sp ∧ t.x = s.x ∧ t.y = s.y ∧ t.flagC = s.flagC ∧ t.flagI = s.flagI ∧
    t.flagD = s.flagD ∧ t.flagB = s.flagB ∧ t.flagO = s.flagO ∧ t.mem = s.mem

/-- The states the machine can be in from the first Reset on: Reset of any idle machine in canonical
form, whatever else it held (70_reset R202), then host commands, and bursts begun and stepped
(00_scope R5, R7). DESIGN CHOICE, log entry 17: idle means that CYC is not positive, also before the
first Reset, where the spec leaves CYC unspecified and Reset does not touch it. -/
inductive Reachable (P : Params) : State → Prop
  | afterReset (s : State) : s.cyc ≤ 0 → Memory.wf s.mem → Reachable P (resetCore s)
  | hostMove (s t : State) (c : Command) : Reachable P s → command P c s = .next t → Reachable P t
  | burstBegun (s : State) (budget : Int) : Reachable P s → s.cyc ≤ 0 →
      Reachable P (beginBurst budget s)
  | engineMove (s : State) : Reachable P s → Reachable P (burstStep P s)

end Sys2Proof.Machine
end

