-- ==== Sys2Proof/Certificates/Slice0/Obligations.lean ====
section
/-! DEFINITION. The statements for the provers, from the numbered rules of spec/. Results are written
in integer arithmetic (`afterLoad`, `cellAt`, `pointerAt` of Sys2Proof/Safety.lean) and not through the
machine's own operations. -/

open Sys2Proof Sys2Proof.Machine

/-! ### Encoding -/

/-- 30_encoding R71, R72, R74, R76: words written out from the table decode to their instructions, the
opcode in bits 7..0, and two opcode bytes outside the table to none. The bytes but `0xAD` and `0xFF` are
the default parameters (log entry 6). -/
def Obligations.TableWordsDecode : Prop :=
  decodeTableWord 16 0x7FA9 = some (.ldaImm 0x7F#8) ∧
    decodeTableWord 16 0x10A5 = some (.ldaZp 0x10#8) ∧
    decodeTableWord 16 0xFEB5 = some (.ldaZpX 0xFE#8) ∧
    decodeTableWord 24 0x8000AD = some (.ldaAbs 0x00#8 0x80#8) ∧
    decodeTableWord 24 0x12F0BD = some (.ldaAbsX 0xF0#8 0x12#8) ∧
    decodeTableWord 24 0xFFF8B9 = some (.ldaAbsY 0xF8#8 0xFF#8) ∧
    decodeTableWord 16 0x20A1 = some (.ldaIndX 0x20#8) ∧
    decodeTableWord 16 0x40B1 = some (.ldaIndY 0x40#8) ∧
    decodeTableWord 16 0x00FF = none ∧
    decodeTableWord 16 0x0000 = none

/-- 30_encoding R74, R77 and 00_scope R3: under every well-formed opcode map every instruction, with
every operand, decodes from its encoding, whatever bytes follow. -/
def Obligations.DecodeInvertsEncode : Prop :=
  ∀ (o : OpcodeMap), o.WellFormed → ∀ (i : Instr) (rest : List Byte),
    decode o (encode o i ++ rest) = .ok (i, rest)

/-- 30_encoding R70, R73: no bit of the bytes is dropped; what decodes encodes back to the same bytes,
and the bytes after it are left over. -/
def Obligations.EncodeInvertsDecode : Prop :=
  ∀ (o : OpcodeMap) (bytes rest : List Byte) (i : Instr),
    decode o bytes = .ok (i, rest) → encode o i ++ rest = bytes

/-- 30_encoding R76, R81: the decoder refuses exactly the bytes that are none of the eight, whatever
follows them; `0xFF` under every well-formed map, and under the default one all but the eight values
of the table. -/
def Obligations.UnknownOpcodesAreTheOtherBytes : Prop :=
  (∀ (o : OpcodeMap) (op : Byte) (rest : List Byte),
      decode o (op :: rest) = .error (.unknownOpcode op) ↔ op ∉ o.bytes) ∧
    (∀ (o : OpcodeMap) (rest : List Byte), o.WellFormed →
      decode o (0xFF#8 :: rest) = .error (.unknownOpcode 0xFF#8)) ∧
    (∀ (op : Byte) (rest : List Byte),
      decode defaultParams.opcodes (op :: rest) = .error (.unknownOpcode op) ↔
        op ∉ [0xA1#8, 0xA5#8, 0xA9#8, 0xAD#8, 0xB1#8, 0xB5#8, 0xB9#8, 0xBD#8])

/-! ### Memory -/

/-- 20_memory R41, R42, R50: a write sets one cell and leaves every other cell and every other element
of the state as it was. -/
def Obligations.WriteSetsOneCell : Prop :=
  ∀ (s : State) (addr other : Addr) (v : Byte), Memory.wf s.mem →
    memRead (memWrite s addr v) other = (if other = addr then v else memRead s other) ∧
      memWrite s addr v = { s with mem := (memWrite s addr v).mem }

/-- 10_state R27: memory is its 65,536 cells; two memories in canonical form that read alike are the
same data. -/
def Obligations.EqualReadsAreEqualMemory : Prop :=
  ∀ m m' : List Host.Cell, Memory.wf m → Memory.wf m' →
    (∀ n, n < 65536 → Memory.read m n = Memory.read m' n) → m = m'

/-- 20_memory R43, 70_reset R200: writing zero to the cells one by one, in any order that leaves none
out, gives the bulk reset, after which every cell is zero. -/
def Obligations.ZeroFillCellByCell : Prop :=
  ∀ (s : State) (cells : List Addr), Memory.wf s.mem → (∀ addr, addr ∈ cells) →
    cells.foldl (fun t addr => memWrite t addr 0x00#8) s = memZeroFill s ∧
      ∀ addr, memRead (memZeroFill s) addr = 0x00#8

/-- 20_memory R57: the engine's next fetch sees what was just written at PC, in every byte of the
window and across the wrap of the address, and the placed bytes are about to be run. -/
def Obligations.FetchSeesPlacedBytes : Prop :=
  ∀ (s : State) (nbits w : Nat), Memory.wf s.mem →
    fetchWindow (s.withFetchWord nbits w) = tableBytes nbits w ∧ 0 < (s.withFetchWord nbits w).cyc

/-! ### Fetch, Access, Peek and the pointer read -/

/-- 40 R100: `Fetch()`. -/
def Obligations.FetchReadsAdvancesCharges : Prop :=
  ∀ s : State, fetch s =
    (cellAt s s.pc.toNat,
      { s with pc := BitVec.ofNat 16 ((s.pc.toNat + 1) % 65536), cyc := s.cyc - 1 })

/-- 40 R101: `Access(addr)`. -/
def Obligations.AccessReadsAndCharges : Prop :=
  ∀ (s : State) (addr : Addr),
    access addr s = (cellAt s addr.toNat, { s with cyc := s.cyc - 1 })

/-- 40 R102: `Peek(addr)`, charged exactly under `CHARGE_PTR_READS`, and not under the default. -/
def Obligations.PeekChargedByParameter : Prop :=
  (∀ (P : Params) (s : State) (addr : Addr),
      peek P addr s =
        (cellAt s addr.toNat, { s with cyc := if P.chargePtrReads then s.cyc - 1 else s.cyc })) ∧
    defaultParams.chargePtrReads = false

/-- 40 R103: `ReadPtrZP(p)` under every setting of both choices; the settings of the wrap agree for
every `p` but `0xFF`, and the default is to wrap. -/
def Obligations.ZeroPagePointerRead : Prop :=
  (∀ (P : Params) (p : Byte) (s : State),
      readPtrZp P p s =
        (BitVec.ofNat 16 (pointerAt P.ptrHiWrap s p.toNat),
          { s with cyc := if P.chargePtrReads then s.cyc - 2 else s.cyc })) ∧
    (∀ (P : Params) (p : Byte) (s : State), p ≠ 0xFF#8 →
      readPtrZp { P with ptrHiWrap := true } p s = readPtrZp { P with ptrHiWrap := false } p s) ∧
    defaultParams.ptrHiWrap = true

/-! ### The load operation and the eight instructions -/

/-- 41_load R130: `UpdateLoadFlags()`; Z and N from A, never both set, no other element written; and
after every load, in every mode, Z and N tell of the loaded value and C, I, D, B, O are unchanged. -/
def Obligations.FlagUpdaterFollowsA : Prop :=
  (∀ s : State,
      updateLoadFlags s =
          { s with flagZ := decide (s.a.toNat = 0), flagN := decide (s.a.toNat / 128 = 1) } ∧
        ¬((updateLoadFlags s).flagZ = true ∧ (updateLoadFlags s).flagN = true)) ∧
    ∀ (i : Instr) (s t : State), exec i s = .next t →
      t.flagZ = decide (t.a.toNat = 0) ∧ t.flagN = decide (t.a.toNat / 128 = 1) ∧
        t.flagC = s.flagC ∧ t.flagI = s.flagI ∧ t.flagD = s.flagD ∧ t.flagB = s.flagB ∧
        t.flagO = s.flagO

/-- 41_load R131: `Load(value)`; the byte unchanged into A, then the flags; what A held before plays
no part. Every instruction ends with it, on the value its resolver answered. -/
def Obligations.LoadPassesTheByte : Prop :=
  (∀ (v old : Byte) (s : State),
      load v s =
          { s with a := v, flagZ := decide (v.toNat = 0), flagN := decide (128 ≤ v.toNat) } ∧
        load v { s with a := old } = load v s) ∧
    ∀ (i : Instr) (s : State),
      exec i s =
        .next (load (resolve defaultParams i (consume s)).1 (resolve defaultParams i (consume s)).2)

/-- 41_load R132: `LDA #d`. -/
def Obligations.LdaImmediateResult : Prop :=
  ∀ (d : Byte) (s : State),
    (∀ o : OpcodeMap, o.WellFormed → encode o (.ldaImm d) = [o.imm, d] ∧
        decode o [o.imm, d] = .ok (.ldaImm d, [])) ∧
      exec (.ldaImm d) s = .next (afterLoad s d 2 2)

/-- 41_load R133: `LDA d`. -/
def Obligations.LdaZeroPageResult : Prop :=
  ∀ (d : Byte) (s : State),
    (∀ o : OpcodeMap, o.WellFormed → encode o (.ldaZp d) = [o.zp, d] ∧
        decode o [o.zp, d] = .ok (.ldaZp d, [])) ∧
      exec (.ldaZp d) s = .next (afterLoad s (cellAt s d.toNat) 2 3)

/-- 41_load R134: `LDA d,X`; the index wraps within the zero page. -/
def Obligations.LdaZeroPageXResult : Prop :=
  ∀ (d : Byte) (s : State),
    (∀ o : OpcodeMap, o.WellFormed → encode o (.ldaZpX d) = [o.zpX, d] ∧
        decode o [o.zpX, d] = .ok (.ldaZpX d, [])) ∧
      exec (.ldaZpX d) s =
        .next (afterLoad s (cellAt s ((d.toNat + s.x.toNat) % 256)) 2 3)

/-- 41_load R135: `LDA a`, low byte of the address first; its opcode byte is `0xAD` in every map. -/
def Obligations.LdaAbsoluteResult : Prop :=
  ∀ (lo hi : Byte) (s : State),
    (∀ o : OpcodeMap, o.WellFormed → encode o (.ldaAbs lo hi) = [o.abs, lo, hi] ∧
        decode o [0xAD#8, lo, hi] = .ok (.ldaAbs lo hi, [])) ∧
      exec (.ldaAbs lo hi) s =
        .next (afterLoad s (cellAt s (hi.toNat * 256 + lo.toNat)) 3 4)

/-- 41_load R136: `LDA a,X`; the sum wraps at 65,536. -/
def Obligations.LdaAbsoluteXResult : Prop :=
  ∀ (lo hi : Byte) (s : State),
    (∀ o : OpcodeMap, o.WellFormed → encode o (.ldaAbsX lo hi) = [o.absX, lo, hi] ∧
        decode o [o.absX, lo, hi] = .ok (.ldaAbsX lo hi, [])) ∧
      exec (.ldaAbsX lo hi) s =
        .next (afterLoad s (cellAt s ((hi.toNat * 256 + lo.toNat + s.x.toNat) % 65536)) 3 4)

/-- 41_load R137: `LDA a,Y`; the sum wraps at 65,536. -/
def Obligations.LdaAbsoluteYResult : Prop :=
  ∀ (lo hi : Byte) (s : State),
    (∀ o : OpcodeMap, o.WellFormed → encode o (.ldaAbsY lo hi) = [o.absY, lo, hi] ∧
        decode o [o.absY, lo, hi] = .ok (.ldaAbsY lo hi, [])) ∧
      exec (.ldaAbsY lo hi) s =
        .next (afterLoad s (cellAt s ((hi.toNat * 256 + lo.toNat + s.y.toNat) % 65536)) 3 4)

/-- 41_load R138: `LDA (d,X)`, by `exec` under the default parameters (log entries 7 and 8), and under
every setting of the two choices by the parametric run. -/
def Obligations.LdaIndirectXResult : Prop :=
  ∀ (d : Byte) (s : State),
    (∀ o : OpcodeMap, o.WellFormed → encode o (.ldaIndX d) = [o.indX, d] ∧
        decode o [o.indX, d] = .ok (.ldaIndX d, [])) ∧
      exec (.ldaIndX d) s =
        .next (afterLoad s (cellAt s (pointerAt true s ((d.toNat + s.x.toNat) % 256))) 2 3) ∧
      ∀ P : Params, runInstr P (.ldaIndX d) s =
        afterLoad s (cellAt s (pointerAt P.ptrHiWrap s ((d.toNat + s.x.toNat) % 256))) 2
          (if P.chargePtrReads then 5 else 3)

/-- 41_load R139: `LDA (d),Y`, by `exec` under the default parameters (log entries 7 and 8), and under
every setting of the two choices by the parametric run. -/
def Obligations.LdaIndirectYResult : Prop :=
  ∀ (d : Byte) (s : State),
    (∀ o : OpcodeMap, o.WellFormed → encode o (.ldaIndY d) = [o.indY, d] ∧
        decode o [o.indY, d] = .ok (.ldaIndY d, [])) ∧
      exec (.ldaIndY d) s =
        .next (afterLoad s (cellAt s ((pointerAt true s d.toNat + s.y.toNat) % 65536)) 2 3) ∧
      ∀ P : Params, runInstr P (.ldaIndY d) s =
        afterLoad s (cellAt s ((pointerAt P.ptrHiWrap s d.toNat + s.y.toNat) % 65536)) 2
          (if P.chargePtrReads then 5 else 3)

/-- 41_load R140: the frame of all eight instructions. An instruction writes PC, A, Z, N and CYC only,
every byte of memory reads as before, and no flag is read: started with other flags it leaves the same
state but for the flags it does not write. -/
def Obligations.LoadsWriteOnlyPcAZNCyc : Prop :=
  ∀ (i : Instr) (s t : State), exec i s = .next t →
    State.SameUntouched s t ∧ t.report = s.report ∧
      (∀ addr, memRead t addr = memRead s addr) ∧
      ∀ c z ii d b o n : Bool,
        exec i { s with
            flagC := c, flagZ := z, flagI := ii, flagD := d, flagB := b, flagO := o, flagN := n } =
          .next { t with flagC := c, flagI := ii, flagD := d, flagB := b, flagO := o }

/-- 41_load R141, 42_sequencer R152: every load completes in every state, whatever CYC holds, zero and
negative included. -/
def Obligations.EveryLoadCompletes : Prop :=
  ∀ (i : Instr) (s : State), ∃ t, exec i s = .next t ∧
    t.cyc = s.cyc - chargeOf defaultParams i.mode

/-- 40 R113: the charge of an instruction depends on its opcode alone, never on operands, registers or
page crossings, under every parameter setting; it is the table's number. -/
def Obligations.ChargeDependsOnOpcodeAlone : Prop :=
  ∀ P : Params,
    (∀ (i j : Instr) (s t : State), i.mode = j.mode →
      s.cyc - (runInstr P i s).cyc = t.cyc - (runInstr P j t).cyc) ∧
      ∀ (i : Instr) (s : State), s.cyc - (runInstr P i s).cyc = chargeOf P i.mode

/-- 42_sequencer R159: PC advances by the length of the encoding, modulo 65,536. -/
def Obligations.PcAdvancesByLength : Prop :=
  ∀ (o : OpcodeMap) (i : Instr) (s t : State), exec i s = .next t →
    t.pc = BitVec.ofNat 16 ((s.pc.toNat + (encode o i).length) % 65536)

/-- 70_reset R209: with index registers of zero the indexed forms equal the plain ones, and the
indirect modes add nothing to the pointer's location or to the address read. -/
def Obligations.ZeroIndexAddsNothing : Prop :=
  ∀ (d lo hi : Byte) (s : State),
    (s.x = 0x00#8 → exec (.ldaZpX d) s = exec (.ldaZp d) s ∧
        exec (.ldaAbsX lo hi) s = exec (.ldaAbs lo hi) s) ∧
      (s.y = 0x00#8 → exec (.ldaAbsY lo hi) s = exec (.ldaAbs lo hi) s) ∧
      (s.x = 0x00#8 → s.y = 0x00#8 → exec (.ldaIndX d) s = exec (.ldaIndY d) s)

/-! ### The step -/

/-- 42_sequencer R151, R153: while CYC is positive and the bytes at PC hold an instruction, the step is
that instruction's `exec`, with nothing around it: the opcode fetch's advance and charge are part of
`exec`. -/
def Obligations.StepRunsDecodedInstruction : Prop :=
  ∀ (s : State) (i : Instr) (rest : List Byte), 0 < s.cyc → i.wf = true →
    decode defaultParams.opcodes
        [memRead s s.pc, memRead s (s.pc + 1#16), memRead s (s.pc + 2#16)] = .ok (i, rest) →
      step s = exec i s

/-- 42_sequencer R151, 60_exceptions R176, R183: with CYC zero or negative nothing is fetched and
nothing changes, whatever byte stands at PC. The idle step as a next state is the model's choice (log
entry 3). -/
def Obligations.IdleStepChangesNothing : Prop :=
  ∀ s : State, s.cyc ≤ 0 → step s = .next s

/-- 60_exceptions R170, R171, R172: a byte in opcode position that is none of the eight takes
UnknownOpcode: PC one past it, CYC zero whatever it was, the report with the byte and its address, and
nothing else. That this is a next state is the model's reading (log entry 5); the typed report is the
spec's decision D7 (log entry 10). -/
def Obligations.UnknownOpcodeEntry : Prop :=
  ∀ s : State, 0 < s.cyc → memRead s s.pc ∉ defaultParams.opcodes.bytes →
    step s = .next
      { s with
        pc := BitVec.ofNat 16 ((s.pc.toNat + 1) % 65536)
        cyc := 0
        report := .unknownOpcode (memRead s s.pc) s.pc }

/-- 60_exceptions R170: in a burst a report is made when, and only when, the byte at PC is none of the
eight; operand and data bytes never make one. The next state at an unknown opcode is the model's reading
(log entry 5), the typed report the spec's decision D7 (log entry 10). -/
def Obligations.ReportMadeOnlyByOpcodeByte : Prop :=
  ∀ s t : State, 0 < s.cyc → s.report = .none → step s = .next t →
    (t.report ≠ .none ↔ memRead s s.pc ∉ defaultParams.opcodes.bytes)

/-- No step from any state faults or is refused, and none writes memory. This is the model's choice in
two cases: an unknown opcode is a next state, where 93 U5 calls the treatment a fault that is fully
defined (log entry 5), and a step with CYC not positive is a next state, the same one (log entry 3).
What the spec gives is that no other exception exists (60_exceptions R178), that the budget's end is none
(R174), and that no instruction writes memory (20_memory R42). -/
def Obligations.StepAlwaysGoesOn : Prop :=
  ∀ s : State, ∃ t, step s = .next t ∧ t.mem = s.mem

/-- 42_sequencer R150, R153: running decoded instructions is the loop the spec writes, where every
operand byte is fetched from memory by itself, for every parameter setting and every state; the step
is that loop body behind the loop test. That the step answers a next state at an unknown opcode and when
idle is the model's choice (log entries 5 and 3). -/
def Obligations.LoopBodyAsTheSpecWritesIt : Prop :=
  (∀ (P : Params) (s : State), iteration P s = specLoopBody P s) ∧
    ∀ s : State, step s = .next (if 0 < s.cyc then specLoopBody defaultParams s else s)

/-! ### Bursts -/

/-- 42_sequencer R150: an `Execute` is its start followed by steps; any number of steps from the budget
on gives the same state. That an idle step changes nothing is the model's choice (log entry 3), that a step
at an unknown opcode answers a next state its reading (log entry 5). -/
def Obligations.BurstIsIteratedSteps : Prop :=
  ∀ (budget : Int) (s : State) (n : Nat), budget.toNat ≤ n →
    Host.Core.run Sys2Proof.core n (beginBurst budget s) =
      .next (executeBurst defaultParams budget s)

/-- 42_sequencer R158: every burst terminates; after at most as many iterations as the budget has units
the loop test fails, and more loop tests change nothing. -/
def Obligations.EveryBurstTerminates : Prop :=
  ∀ (P : Params) (budget : Int) (s : State),
    (executeBurst P budget s).cyc ≤ 0 ∧
      ∀ n : Nat, budget.toNat ≤ n →
        runBurst P n (beginBurst budget s) = executeBurst P budget s

/-- 42_sequencer R156, R157: the bounds on CYC, (a) to (d); with a budget of zero or less nothing
changes but CYC and REPORT. -/
def Obligations.BudgetBounds : Prop :=
  ∀ (P : Params) (budget : Int) (s : State),
    (budget ≤ 0 → executeBurst P budget s = { s with cyc := budget, report := .none }) ∧
      (1 ≤ budget → (executeBurst P budget s).report = .none →
        1 - maxCharge P ≤ (executeBurst P budget s).cyc ∧ (executeBurst P budget s).cyc ≤ 0) ∧
      ((executeBurst P budget s).report ≠ .none → (executeBurst P budget s).cyc = 0) ∧
      (∀ n : Nat, (runBurst P n (beginBurst budget s)).cyc ≤ budget) ∧
      (∀ t : State, (fetch t).2.cyc < t.cyc ∧ (∀ addr, (access addr t).2.cyc < t.cyc) ∧
        (0 < t.cyc → (burstStep P t).cyc < t.cyc)) ∧
      maxCharge defaultParams = 4

/-- 42_sequencer R150, R162, 60_exceptions R185: a new burst starts with its own budget and an empty
report, every other element as it was, and is the run from there; so what the last burst left in CYC and
REPORT plays no part: an overdraft is not carried over. That the report is cleared at the start is the
spec's decision D7 (log entry 10). -/
def Obligations.OverdraftIsNotCarriedOver : Prop :=
  ∀ (P : Params) (budget : Int) (s : State),
    beginBurst budget s = { s with cyc := budget, report := .none } ∧
      executeBurst P budget s =
        runBurst P budget.toNat { s with cyc := budget, report := .none } ∧
      ∀ (c : Int) (r : Report),
        executeBurst P budget { s with cyc := c, report := r } = executeBurst P budget s

/-- 42_sequencer R162: a host that adds the last burst's final CYC to the next budget accounts exactly:
two bursts so run end as one burst of both budgets, when the first did not end by UnknownOpcode. -/
def Obligations.CarriedBudgetsAccountExactly : Prop :=
  ∀ (P : Params) (first second : Int) (s : State), 0 ≤ second →
    (executeBurst P first s).report = .none →
      executeBurst P (second + (executeBurst P first s).cyc) (executeBurst P first s) =
        executeBurst P (first + second) s

/-- 42_sequencer R158: a burst that meets only loads runs at most ceil(budget / 2) and at least
ceil(budget / 4) instructions under the default parameters. -/
def Obligations.LoadCountOfABurst : Prop :=
  ∀ (budget : Int) (s : State), 1 ≤ budget →
    (executeBurst defaultParams budget s).report = .none →
      ∃ k : Nat, executeBurst defaultParams budget s =
          (iteration defaultParams)^[k] (beginBurst budget s) ∧
        (∀ j, j < k → 0 < ((iteration defaultParams)^[j] (beginBurst budget s)).cyc) ∧
        2 * (k : Int) ≤ budget + 1 ∧ budget ≤ 4 * (k : Int)

/-- 60_exceptions R182, the spec's own inference: `Execute(1)` runs exactly one step. The grain of a step
is the model's choice (log entry 3), and that the step at an unknown opcode answers a next state its
reading (log entry 5). -/
def Obligations.ExecuteOneSingleSteps : Prop :=
  ∀ s : State, step (beginBurst 1 s) = .next (executeBurst defaultParams 1 s) ∧
    (executeBurst defaultParams 1 s).cyc ≤ 0

/-! ### Whole-machine rules -/

/-- The invariant of the model (20_memory R40, 60_exceptions R171): every step keeps memory in
canonical form and a burst under way without a report. -/
def Obligations.StepKeepsInvariant : Prop :=
  ∀ s t : State, s.Inv → step s = .next t → t.Inv

/-- The state after Reset meets the invariant. -/
def Obligations.ResetMeetsInvariant : Prop :=
  State.reset.Inv ∧ State.reset.ReportTells defaultParams

/-- 60_exceptions R171, R172: every step keeps what a report tells (the byte at its address has no
handler, PC is one past it, CYC is 0), and every burst, from any state, ends with it. -/
def Obligations.ReportTellsTheTruth : Prop :=
  (∀ s t : State, s.ReportTells defaultParams → step s = .next t → t.ReportTells defaultParams) ∧
    ∀ (P : Params) (budget : Int) (s : State), (executeBurst P budget s).ReportTells P

/-- 10_state R24: every load establishes the Z/N invariant; every step, and every burst under any
setting, keeps it; so does every host move that writes none of A, Z and N itself; directly after Reset
it can fail, even where it held before. The host's moves are the spec's decision D9 (log entry 11), Z
retained by Reset its decision D11 (log entry 12). -/
def Obligations.FlagRuleIsKept : Prop :=
  (∀ (i : Instr) (s t : State), exec i s = .next t → t.FlagsFollowA) ∧
    (∀ s t : State, s.FlagsFollowA → step s = .next t → t.FlagsFollowA) ∧
    (∀ (P : Params) (budget : Int) (s : State), s.FlagsFollowA →
      (executeBurst P budget s).FlagsFollowA) ∧
    (∀ (P : Params) (c : Command) (s t : State), c.leavesAZN = true → s.FlagsFollowA →
      command P c s = .next t → t.FlagsFollowA) ∧
    ∃ s : State, s.FlagsFollowA ∧ ¬(resetCore s).FlagsFollowA

/-- 10_state R30, 20_memory R42, 70_reset R209: no step and no burst, unknown opcodes included, writes
SP, X, Y, C, I, D, B, O or a memory cell. -/
def Obligations.EngineNeverWritesTheRest : Prop :=
  (∀ s t : State, step s = .next t →
      State.SameUntouched s t ∧ ∀ addr, memRead t addr = memRead s addr) ∧
    ∀ (P : Params) (budget : Int) (s : State), State.SameUntouched s (executeBurst P budget s)

/-- 41_load R140, 30_encoding R78, 10_state R12: SP and the seven flags have no influence on execution:
two machines that differ only in them go on differing only in them, step by step and burst by burst. -/
def Obligations.FlagsAndSpHaveNoInfluence : Prop :=
  ∀ (P : Params) (s t : State), State.AgreeOnRead s t →
    State.AgreeOnRead (burstStep P s) (burstStep P t) ∧
      ∀ budget : Int,
        State.AgreeOnRead (executeBurst P budget s) (executeBurst P budget t)

/-! ### Reset and the host -/

/-- 70_reset R200: Reset from any state; D and I cleared, the other flags as they were, REPORT None.
That REPORT is cleared is the spec's decision D7 (log entry 10, R203), that Z is among the retained flags
its decision D11 (log entry 12, R201). -/
def Obligations.ResetEffect : Prop :=
  ∀ s : State,
    (resetCore s).pc = 0xFFFC#16 ∧ (resetCore s).sp = 0x0100#16 ∧ (resetCore s).a = 0x00#8 ∧
      (resetCore s).x = 0x00#8 ∧ (resetCore s).y = 0x00#8 ∧ (resetCore s).flagD = false ∧
      (resetCore s).flagI = false ∧ (resetCore s).report = .none ∧
      (∀ addr, memRead (resetCore s) addr = 0x00#8) ∧
      (resetCore s).flagC = s.flagC ∧ (resetCore s).flagZ = s.flagZ ∧
      (resetCore s).flagB = s.flagB ∧ (resetCore s).flagO = s.flagO ∧
      (resetCore s).flagN = s.flagN

/-- 70_reset R200, R203: the values the spec gives the state after Reset, in the model's
`State.reset`; nothing is said of C, Z, B, O, N and CYC, which the spec leaves (log entries 1, 2). -/
def Obligations.ResetStateHoldsSpecValues : Prop :=
  State.reset.pc = 0xFFFC#16 ∧ State.reset.sp = 0x0100#16 ∧ State.reset.a = 0x00#8 ∧
    State.reset.x = 0x00#8 ∧ State.reset.y = 0x00#8 ∧ State.reset.flagI = false ∧
    State.reset.flagD = false ∧ State.reset.report = .none ∧
    ∀ addr, memRead State.reset addr = 0x00#8

/-- 70_reset R201, R203: what Reset leaves alone. It depends on nothing but C, Z, B, O, N and CYC, keeps
them, and clears REPORT; so A can be zero with Z clear and N set. That Z is retained is the spec's
decision D11 (log entry 12), that REPORT is cleared its decision D7 (log entry 10). -/
def Obligations.ResetKeepsFiveFlagsAndCyc : Prop :=
  (∀ s t : State, s.flagC = t.flagC → s.flagZ = t.flagZ → s.flagB = t.flagB → s.flagO = t.flagO →
      s.flagN = t.flagN → s.cyc = t.cyc → resetCore s = resetCore t) ∧
    (∀ s : State,
      (resetCore s).flagC = s.flagC ∧ (resetCore s).flagZ = s.flagZ ∧
        (resetCore s).flagB = s.flagB ∧ (resetCore s).flagO = s.flagO ∧
        (resetCore s).flagN = s.flagN ∧ (resetCore s).cyc = s.cyc ∧
        (resetCore s).report = .none) ∧
    ∃ s : State, (resetCore s).a = 0x00#8 ∧ (resetCore s).flagZ = false ∧
      (resetCore s).flagN = true

/-- 70_reset R205: Reset, then `Execute(n)` with n at least 1, executes the zero byte at the entry
point, whatever the machine held; and any program that runs into a zero byte ends there. The spec infers
it itself; that `0x00` is unknown rests on the default opcode map (log entry 6), the next state on log
entry 5, the typed report on log entry 10. -/
def Obligations.ZeroFilledMemoryEndsAtOnce : Prop :=
  (∀ (s : State) (budget : Int), 1 ≤ budget →
      executeBurst defaultParams budget (resetCore s) =
        { resetCore s with
          pc := 0xFFFD#16, cyc := 0, report := .unknownOpcode 0x00#8 0xFFFC#16 }) ∧
    ∀ s : State, 0 < s.cyc → memRead s s.pc = 0x00#8 →
      step s = .next
        { s with pc := s.pc + 1#16, cyc := 0, report := .unknownOpcode 0x00#8 s.pc }

/-- 00_scope R5, R7: no command or access is accepted while a burst runs, which the model answers by a
refusal of its own (log entry 11); a positive CYC counts as a running burst also before the first Reset,
where Reset is then refused (the model's choice, log entry 17). Between bursts every command is accepted
and leaves the machine between bursts, so commands run one after another. Reset and Execute
are the operations of their own rules, and a read back changes nothing (R6). -/
def Obligations.CommandsOnlyBetweenBursts : Prop :=
  ∀ (P : Params) (c : Command) (s : State),
    (0 < s.cyc → command P c s = .refused .commandDuringBurst) ∧
      (s.cyc ≤ 0 → (∃ t, command P c s = .next t ∧ t.cyc ≤ 0) ∧
        command P .reset s = .next (resetCore s) ∧
        (∀ budget, command P (.execute budget) s = .next (executeBurst P budget s)) ∧
        command P .readBack s = .next s)

/-- 10_state R32: between bursts the host presets any field of ProcessorState to any value, and
nothing else changes. That the host may is the spec's decision D9 (log entry 11). -/
def Obligations.PresetSetsOneField : Prop :=
  ∀ (P : Params) (s : State) (addr : Addr) (v : Byte) (bit : Bool), s.cyc ≤ 0 →
    command P (.presetPc addr) s = .next { s with pc := addr } ∧
      command P (.presetSp addr) s = .next { s with sp := addr } ∧
      command P (.presetA v) s = .next { s with a := v } ∧
      command P (.presetX v) s = .next { s with x := v } ∧
      command P (.presetY v) s = .next { s with y := v } ∧
      command P (.presetFlag .c bit) s = .next { s with flagC := bit } ∧
      command P (.presetFlag .z bit) s = .next { s with flagZ := bit } ∧
      command P (.presetFlag .i bit) s = .next { s with flagI := bit } ∧
      command P (.presetFlag .d bit) s = .next { s with flagD := bit } ∧
      command P (.presetFlag .b bit) s = .next { s with flagB := bit } ∧
      command P (.presetFlag .o bit) s = .next { s with flagO := bit } ∧
      command P (.presetFlag .n bit) s = .next { s with flagN := bit }

/-- 20_memory R42, R55, R57: a host write between bursts is seen by the fetch and by every read, and no
other cell and no other element of the state changes. That the host is refused during a burst is the
model's (log entry 11). -/
def Obligations.HostWriteIsSeen : Prop :=
  ∀ (P : Params) (s : State) (addr : Addr) (v : Byte), s.cyc ≤ 0 → Memory.wf s.mem →
    ∃ t, command P (.writeByte addr v) s = .next t ∧ (fetch { t with pc := addr }).1 = v ∧
      memRead t addr = v ∧ (∀ other, other ≠ addr → memRead t other = memRead s other) ∧
      t = { s with mem := t.mem }

/-- 60_exceptions R171, 20_memory R40, 00_scope R5: every state the machine can reach, from Reset of any
idle machine by host commands, bursts and steps in any order, has its memory in canonical form and no
report while a burst runs. That the machine before its first Reset has CYC not positive is the model's
choice (log entry 17). -/
def Obligations.ReachableStatesMeetInvariant : Prop :=
  ∀ (P : Params) (s : State), Reachable P s → s.Inv
end

