-- ==== Sys2Proof/Laws/State.lean ====
section
/-! SUPPORT. What each named update leaves in each field of State: one lemma per field per update, so
that no later proof unfolds a record update. -/

namespace Sys2Proof.Machine

variable (s : State)

/-! ### charge -/

@[simp] theorem charge_pc : (charge s).pc = s.pc := rfl
@[simp] theorem charge_sp : (charge s).sp = s.sp := rfl
@[simp] theorem charge_a : (charge s).a = s.a := rfl
@[simp] theorem charge_x : (charge s).x = s.x := rfl
@[simp] theorem charge_y : (charge s).y = s.y := rfl
@[simp] theorem charge_flagC : (charge s).flagC = s.flagC := rfl
@[simp] theorem charge_flagZ : (charge s).flagZ = s.flagZ := rfl
@[simp] theorem charge_flagI : (charge s).flagI = s.flagI := rfl
@[simp] theorem charge_flagD : (charge s).flagD = s.flagD := rfl
@[simp] theorem charge_flagB : (charge s).flagB = s.flagB := rfl
@[simp] theorem charge_flagO : (charge s).flagO = s.flagO := rfl
@[simp] theorem charge_flagN : (charge s).flagN = s.flagN := rfl
@[simp] theorem charge_cyc : (charge s).cyc = s.cyc - 1 := rfl
@[simp] theorem charge_report : (charge s).report = s.report := rfl
@[simp] theorem charge_mem : (charge s).mem = s.mem := rfl

/-! ### consume -/

@[simp] theorem consume_pc : (consume s).pc = s.pc + 1#16 := rfl
@[simp] theorem consume_sp : (consume s).sp = s.sp := rfl
@[simp] theorem consume_a : (consume s).a = s.a := rfl
@[simp] theorem consume_x : (consume s).x = s.x := rfl
@[simp] theorem consume_y : (consume s).y = s.y := rfl
@[simp] theorem consume_flagC : (consume s).flagC = s.flagC := rfl
@[simp] theorem consume_flagZ : (consume s).flagZ = s.flagZ := rfl
@[simp] theorem consume_flagI : (consume s).flagI = s.flagI := rfl
@[simp] theorem consume_flagD : (consume s).flagD = s.flagD := rfl
@[simp] theorem consume_flagB : (consume s).flagB = s.flagB := rfl
@[simp] theorem consume_flagO : (consume s).flagO = s.flagO := rfl
@[simp] theorem consume_flagN : (consume s).flagN = s.flagN := rfl
@[simp] theorem consume_cyc : (consume s).cyc = s.cyc - 1 := rfl
@[simp] theorem consume_report : (consume s).report = s.report := rfl
@[simp] theorem consume_mem : (consume s).mem = s.mem := rfl

/-! ### memWrite -/

@[simp] theorem memWrite_pc (addr : Addr) (v : Byte) : (memWrite s addr v).pc = s.pc := rfl
@[simp] theorem memWrite_sp (addr : Addr) (v : Byte) : (memWrite s addr v).sp = s.sp := rfl
@[simp] theorem memWrite_a (addr : Addr) (v : Byte) : (memWrite s addr v).a = s.a := rfl
@[simp] theorem memWrite_x (addr : Addr) (v : Byte) : (memWrite s addr v).x = s.x := rfl
@[simp] theorem memWrite_y (addr : Addr) (v : Byte) : (memWrite s addr v).y = s.y := rfl
@[simp] theorem memWrite_flagC (addr : Addr) (v : Byte) : (memWrite s addr v).flagC = s.flagC := rfl
@[simp] theorem memWrite_flagZ (addr : Addr) (v : Byte) : (memWrite s addr v).flagZ = s.flagZ := rfl
@[simp] theorem memWrite_flagI (addr : Addr) (v : Byte) : (memWrite s addr v).flagI = s.flagI := rfl
@[simp] theorem memWrite_flagD (addr : Addr) (v : Byte) : (memWrite s addr v).flagD = s.flagD := rfl
@[simp] theorem memWrite_flagB (addr : Addr) (v : Byte) : (memWrite s addr v).flagB = s.flagB := rfl
@[simp] theorem memWrite_flagO (addr : Addr) (v : Byte) : (memWrite s addr v).flagO = s.flagO := rfl
@[simp] theorem memWrite_flagN (addr : Addr) (v : Byte) : (memWrite s addr v).flagN = s.flagN := rfl
@[simp] theorem memWrite_cyc (addr : Addr) (v : Byte) : (memWrite s addr v).cyc = s.cyc := rfl
@[simp] theorem memWrite_report (addr : Addr) (v : Byte) : (memWrite s addr v).report = s.report := rfl
@[simp] theorem memWrite_mem (addr : Addr) (v : Byte) : (memWrite s addr v).mem = Memory.write s.mem addr.toNat v := rfl

/-! ### memZeroFill -/

@[simp] theorem memZeroFill_pc : (memZeroFill s).pc = s.pc := rfl
@[simp] theorem memZeroFill_sp : (memZeroFill s).sp = s.sp := rfl
@[simp] theorem memZeroFill_a : (memZeroFill s).a = s.a := rfl
@[simp] theorem memZeroFill_x : (memZeroFill s).x = s.x := rfl
@[simp] theorem memZeroFill_y : (memZeroFill s).y = s.y := rfl
@[simp] theorem memZeroFill_flagC : (memZeroFill s).flagC = s.flagC := rfl
@[simp] theorem memZeroFill_flagZ : (memZeroFill s).flagZ = s.flagZ := rfl
@[simp] theorem memZeroFill_flagI : (memZeroFill s).flagI = s.flagI := rfl
@[simp] theorem memZeroFill_flagD : (memZeroFill s).flagD = s.flagD := rfl
@[simp] theorem memZeroFill_flagB : (memZeroFill s).flagB = s.flagB := rfl
@[simp] theorem memZeroFill_flagO : (memZeroFill s).flagO = s.flagO := rfl
@[simp] theorem memZeroFill_flagN : (memZeroFill s).flagN = s.flagN := rfl
@[simp] theorem memZeroFill_cyc : (memZeroFill s).cyc = s.cyc := rfl
@[simp] theorem memZeroFill_report : (memZeroFill s).report = s.report := rfl
@[simp] theorem memZeroFill_mem : (memZeroFill s).mem = [] := rfl

/-! ### raiseUnknownOpcode -/

@[simp] theorem raiseUnknownOpcode_pc (op : Byte) (pc0 : Addr) : (raiseUnknownOpcode op pc0 s).pc = s.pc := rfl
@[simp] theorem raiseUnknownOpcode_sp (op : Byte) (pc0 : Addr) : (raiseUnknownOpcode op pc0 s).sp = s.sp := rfl
@[simp] theorem raiseUnknownOpcode_a (op : Byte) (pc0 : Addr) : (raiseUnknownOpcode op pc0 s).a = s.a := rfl
@[simp] theorem raiseUnknownOpcode_x (op : Byte) (pc0 : Addr) : (raiseUnknownOpcode op pc0 s).x = s.x := rfl
@[simp] theorem raiseUnknownOpcode_y (op : Byte) (pc0 : Addr) : (raiseUnknownOpcode op pc0 s).y = s.y := rfl
@[simp] theorem raiseUnknownOpcode_flagC (op : Byte) (pc0 : Addr) : (raiseUnknownOpcode op pc0 s).flagC = s.flagC := rfl
@[simp] theorem raiseUnknownOpcode_flagZ (op : Byte) (pc0 : Addr) : (raiseUnknownOpcode op pc0 s).flagZ = s.flagZ := rfl
@[simp] theorem raiseUnknownOpcode_flagI (op : Byte) (pc0 : Addr) : (raiseUnknownOpcode op pc0 s).flagI = s.flagI := rfl
@[simp] theorem raiseUnknownOpcode_flagD (op : Byte) (pc0 : Addr) : (raiseUnknownOpcode op pc0 s).flagD = s.flagD := rfl
@[simp] theorem raiseUnknownOpcode_flagB (op : Byte) (pc0 : Addr) : (raiseUnknownOpcode op pc0 s).flagB = s.flagB := rfl
@[simp] theorem raiseUnknownOpcode_flagO (op : Byte) (pc0 : Addr) : (raiseUnknownOpcode op pc0 s).flagO = s.flagO := rfl
@[simp] theorem raiseUnknownOpcode_flagN (op : Byte) (pc0 : Addr) : (raiseUnknownOpcode op pc0 s).flagN = s.flagN := rfl
@[simp] theorem raiseUnknownOpcode_cyc (op : Byte) (pc0 : Addr) : (raiseUnknownOpcode op pc0 s).cyc = 0 := rfl
@[simp] theorem raiseUnknownOpcode_report (op : Byte) (pc0 : Addr) : (raiseUnknownOpcode op pc0 s).report = .unknownOpcode op pc0 := rfl
@[simp] theorem raiseUnknownOpcode_mem (op : Byte) (pc0 : Addr) : (raiseUnknownOpcode op pc0 s).mem = s.mem := rfl

/-! ### resetCore -/

@[simp] theorem resetCore_pc : (resetCore s).pc = 0xFFFC#16 := rfl
@[simp] theorem resetCore_sp : (resetCore s).sp = 0x0100#16 := rfl
@[simp] theorem resetCore_a : (resetCore s).a = 0x00#8 := rfl
@[simp] theorem resetCore_x : (resetCore s).x = 0x00#8 := rfl
@[simp] theorem resetCore_y : (resetCore s).y = 0x00#8 := rfl
@[simp] theorem resetCore_flagC : (resetCore s).flagC = s.flagC := rfl
@[simp] theorem resetCore_flagZ : (resetCore s).flagZ = s.flagZ := rfl
@[simp] theorem resetCore_flagI : (resetCore s).flagI = false := rfl
@[simp] theorem resetCore_flagD : (resetCore s).flagD = false := rfl
@[simp] theorem resetCore_flagB : (resetCore s).flagB = s.flagB := rfl
@[simp] theorem resetCore_flagO : (resetCore s).flagO = s.flagO := rfl
@[simp] theorem resetCore_flagN : (resetCore s).flagN = s.flagN := rfl
@[simp] theorem resetCore_cyc : (resetCore s).cyc = s.cyc := rfl
@[simp] theorem resetCore_report : (resetCore s).report = .none := rfl
@[simp] theorem resetCore_mem : (resetCore s).mem = [] := rfl

/-! ### updateLoadFlags -/

@[simp] theorem updateLoadFlags_pc : (updateLoadFlags s).pc = s.pc := rfl
@[simp] theorem updateLoadFlags_sp : (updateLoadFlags s).sp = s.sp := rfl
@[simp] theorem updateLoadFlags_a : (updateLoadFlags s).a = s.a := rfl
@[simp] theorem updateLoadFlags_x : (updateLoadFlags s).x = s.x := rfl
@[simp] theorem updateLoadFlags_y : (updateLoadFlags s).y = s.y := rfl
@[simp] theorem updateLoadFlags_flagC : (updateLoadFlags s).flagC = s.flagC := rfl
@[simp] theorem updateLoadFlags_flagZ : (updateLoadFlags s).flagZ = (s.a == 0x00#8) := rfl
@[simp] theorem updateLoadFlags_flagI : (updateLoadFlags s).flagI = s.flagI := rfl
@[simp] theorem updateLoadFlags_flagD : (updateLoadFlags s).flagD = s.flagD := rfl
@[simp] theorem updateLoadFlags_flagB : (updateLoadFlags s).flagB = s.flagB := rfl
@[simp] theorem updateLoadFlags_flagO : (updateLoadFlags s).flagO = s.flagO := rfl
@[simp] theorem updateLoadFlags_flagN : (updateLoadFlags s).flagN = s.a[7] := rfl
@[simp] theorem updateLoadFlags_cyc : (updateLoadFlags s).cyc = s.cyc := rfl
@[simp] theorem updateLoadFlags_report : (updateLoadFlags s).report = s.report := rfl
@[simp] theorem updateLoadFlags_mem : (updateLoadFlags s).mem = s.mem := rfl

/-! ### load -/

@[simp] theorem load_pc (v : Byte) : (load v s).pc = s.pc := rfl
@[simp] theorem load_sp (v : Byte) : (load v s).sp = s.sp := rfl
@[simp] theorem load_a (v : Byte) : (load v s).a = v := rfl
@[simp] theorem load_x (v : Byte) : (load v s).x = s.x := rfl
@[simp] theorem load_y (v : Byte) : (load v s).y = s.y := rfl
@[simp] theorem load_flagC (v : Byte) : (load v s).flagC = s.flagC := rfl
@[simp] theorem load_flagZ (v : Byte) : (load v s).flagZ = (v == 0x00#8) := rfl
@[simp] theorem load_flagI (v : Byte) : (load v s).flagI = s.flagI := rfl
@[simp] theorem load_flagD (v : Byte) : (load v s).flagD = s.flagD := rfl
@[simp] theorem load_flagB (v : Byte) : (load v s).flagB = s.flagB := rfl
@[simp] theorem load_flagO (v : Byte) : (load v s).flagO = s.flagO := rfl
@[simp] theorem load_flagN (v : Byte) : (load v s).flagN = v[7] := rfl
@[simp] theorem load_cyc (v : Byte) : (load v s).cyc = s.cyc := rfl
@[simp] theorem load_report (v : Byte) : (load v s).report = s.report := rfl
@[simp] theorem load_mem (v : Byte) : (load v s).mem = s.mem := rfl

/-! ### beginBurst -/

@[simp] theorem beginBurst_pc (budget : Int) : (beginBurst budget s).pc = s.pc := rfl
@[simp] theorem beginBurst_sp (budget : Int) : (beginBurst budget s).sp = s.sp := rfl
@[simp] theorem beginBurst_a (budget : Int) : (beginBurst budget s).a = s.a := rfl
@[simp] theorem beginBurst_x (budget : Int) : (beginBurst budget s).x = s.x := rfl
@[simp] theorem beginBurst_y (budget : Int) : (beginBurst budget s).y = s.y := rfl
@[simp] theorem beginBurst_flagC (budget : Int) : (beginBurst budget s).flagC = s.flagC := rfl
@[simp] theorem beginBurst_flagZ (budget : Int) : (beginBurst budget s).flagZ = s.flagZ := rfl
@[simp] theorem beginBurst_flagI (budget : Int) : (beginBurst budget s).flagI = s.flagI := rfl
@[simp] theorem beginBurst_flagD (budget : Int) : (beginBurst budget s).flagD = s.flagD := rfl
@[simp] theorem beginBurst_flagB (budget : Int) : (beginBurst budget s).flagB = s.flagB := rfl
@[simp] theorem beginBurst_flagO (budget : Int) : (beginBurst budget s).flagO = s.flagO := rfl
@[simp] theorem beginBurst_flagN (budget : Int) : (beginBurst budget s).flagN = s.flagN := rfl
@[simp] theorem beginBurst_cyc (budget : Int) : (beginBurst budget s).cyc = budget := rfl
@[simp] theorem beginBurst_report (budget : Int) : (beginBurst budget s).report = .none := rfl
@[simp] theorem beginBurst_mem (budget : Int) : (beginBurst budget s).mem = s.mem := rfl

end Sys2Proof.Machine
end

