-- ==== Sys2Proof/Laws/Memory.lean ====
section
/-! SUPPORT. Every memory operation keeps the canonical form, and the memory Reset leaves has it. -/

namespace Sys2Proof.Machine

theorem Memory.wf_nil : Memory.wf [] := ⟨.nil, fun _ h => nomatch h⟩

/-- An address of a list written at `addr` is `addr` or was there before. -/
theorem Memory.mem_write {m : List Host.Cell} {addr : Nat} {v : Byte} {p : Host.Cell}
    (h : p ∈ Memory.write m addr v) : (p = (addr, v) ∧ v ≠ unlistedByte) ∨ p ∈ m := by
  induction m with
  | nil =>
    simp only [Memory.write, Memory.put] at h
    split at h <;> simp_all
  | cons c m ih =>
    obtain ⟨k, u⟩ := c
    simp only [Memory.write, Memory.put] at h
    split at h
    · split at h <;> simp_all
    · split at h
      · split at h
        · exact .inr (List.mem_cons_of_mem _ h)
        · next hv =>
          rcases List.mem_cons.mp h with rfl | h
          · exact .inl ⟨rfl, hv⟩
          · exact .inr (List.mem_cons_of_mem _ h)
      · rcases List.mem_cons.mp h with h | h
        · exact .inr (h ▸ List.mem_cons_self)
        · exact (ih h).imp id (List.mem_cons_of_mem _)

/-- `Memory.write` keeps the canonical form for an address inside the store. -/
theorem Memory.write_wf {m : List Host.Cell} (hm : Memory.wf m) {addr : Nat} (ha : addr < 65536)
    (v : Byte) : Memory.wf (Memory.write m addr v) := by
  refine ⟨?_, fun p hp => ?_⟩
  · replace hm := hm.1
    induction m with
    | nil => simp only [Memory.write, Memory.put]; split <;> simp
    | cons c m ih =>
      obtain ⟨k, u⟩ := c
      have hk := List.pairwise_cons.mp hm
      simp only [Memory.write, Memory.put]
      split
      · next hlt =>
        split
        · exact hm
        · refine List.pairwise_cons.mpr ⟨fun p hp => ?_, hm⟩
          rcases List.mem_cons.mp hp with rfl | hp
          · exact hlt
          · exact hlt.trans (hk.1 p hp)
      · next hge =>
        split
        · next he =>
          split
          · exact hk.2
          · exact List.pairwise_cons.mpr ⟨fun p hp => he ▸ hk.1 p hp, hk.2⟩
        · next hne =>
          refine List.pairwise_cons.mpr ⟨fun p hp => ?_, ih hk.2⟩
          rcases Memory.mem_write hp with ⟨rfl, -⟩ | hp
          · show k < addr; omega
          · exact hk.1 p hp
  · rcases Memory.mem_write hp with ⟨rfl, hv⟩ | hp
    · exact ⟨ha, hv⟩
    · exact hm.2 p hp

theorem memWrite_wf {s : State} (hs : Memory.wf s.mem) (addr : Addr) (v : Byte) :
    Memory.wf (memWrite s addr v).mem :=
  Memory.write_wf hs addr.isLt v

theorem memZeroFill_wf (s : State) : Memory.wf (memZeroFill s).mem :=
  Memory.wf_nil

theorem resetCore_wf (s : State) : Memory.wf (resetCore s).mem :=
  Memory.wf_nil

theorem reset_wf : Memory.wf State.reset.mem := Memory.wf_nil

theorem storeBytes_wf {s : State} (hs : Memory.wf s.mem) (bs : List Byte) (addr : Addr) :
    Memory.wf (storeBytes bs addr s).mem := by
  induction bs generalizing s addr with
  | nil => exact hs
  | cons b bs ih => exact ih (memWrite_wf hs addr b) (addr + 1#16)

theorem placeFetchWord_wf {s : State} (hs : Memory.wf s.mem) (nbits w : Nat) :
    Memory.wf (placeFetchWord s nbits w).mem := by
  simp only [placeFetchWord]
  split <;> exact storeBytes_wf hs _ _

/-- A read depends on the memory alone. -/
@[simp] theorem memRead_charge (s : State) (addr : Addr) : memRead (charge s) addr = memRead s addr := rfl

@[simp] theorem memRead_consume (s : State) (addr : Addr) :
    memRead (consume s) addr = memRead s addr := rfl

@[simp] theorem memRead_load (v : Byte) (s : State) (addr : Addr) :
    memRead (load v s) addr = memRead s addr := rfl

@[simp] theorem memRead_beginBurst (budget : Int) (s : State) (addr : Addr) :
    memRead (beginBurst budget s) addr = memRead s addr := rfl

@[simp] theorem memRead_raiseUnknownOpcode (op : Byte) (pc0 : Addr) (s : State) (addr : Addr) :
    memRead (raiseUnknownOpcode op pc0 s) addr = memRead s addr := rfl

@[simp] theorem memRead_resetCore (s : State) (addr : Addr) :
    memRead (resetCore s) addr = 0x00#8 := rfl

end Sys2Proof.Machine
end

