-- ==== Sys2Proof/Laws/Operands.lean ====
section
/-! SUPPORT. What the shared operations of a load can do, said once: a pointer read, a resolver, a
whole instruction. -/

namespace Sys2Proof.Machine

/-- A pointer byte is the cell's content; the state moves only by the charge, and only if pointer
reads are charged. -/
theorem peek_eq (P : Params) (addr : Addr) (s : State) :
    peek P addr s = (memRead s addr, if P.chargePtrReads then charge s else s) := by
  simp only [peek, access]; split <;> rfl

/-- The pointer read in one line. -/
theorem readPtrZp_eq (P : Params) (p : Byte) (s : State) :
    readPtrZp P p s =
      (pair (memRead s (if P.ptrHiWrap then zext16 (p + 1#8) else zext16 p + 1#16))
          (memRead s (zext16 p)),
        if P.chargePtrReads then charge (charge s) else s) := by
  simp only [readPtrZp, peek_eq]
  cases P.chargePtrReads <;> simp

/-- The state a resolver leaves: PC past the operand bytes, CYC lowered by the instruction's charge
less the opcode fetch, everything else as it was. -/
theorem resolve_state (P : Params) (i : Instr) (s : State) :
    (resolve P i s).2 =
      { s with
        pc := s.pc + BitVec.ofNat 16 (operandBytes i.mode)
        cyc := s.cyc - (chargeOf P i.mode - 1) } := by
  cases hP : P.chargePtrReads <;> cases i <;>
    simp [resolve, resolveImm, resolveZp, resolveZpX, resolveAbs, resolveAbsX, resolveAbsY,
      resolveIndX, resolveIndY, access, readPtrZp_eq, consume, charge, Instr.mode, operandBytes,
      chargeOf, BitVec.add_assoc, hP] <;>
    omega

/-- The state a whole instruction leaves, in terms of the value it loads. -/
theorem runInstr_state (P : Params) (i : Instr) (s : State) :
    runInstr P i s =
      load (resolve P i (consume s)).1
        { s with
          pc := s.pc + BitVec.ofNat 16 (instrLength i.mode)
          cyc := s.cyc - chargeOf P i.mode } := by
  have hpc : s.pc + 1#16 + BitVec.ofNat 16 (operandBytes i.mode) =
      s.pc + BitVec.ofNat 16 (instrLength i.mode) := by
    cases i <;> simp [Instr.mode, instrLength, operandBytes, BitVec.add_assoc]
  have hcyc : s.cyc - 1 - (chargeOf P i.mode - 1) = s.cyc - chargeOf P i.mode := by omega
  simp only [runInstr, loadResolved, resolve_state, consume, hpc, hcyc]

/-- The parametric run at the default parameters is `exec`. -/
theorem exec_eq_runInstr (i : Instr) (s : State) :
    exec i s = .next (runInstr defaultParams i s) := by
  cases i <;> rfl

/-- An instruction that goes on leaves what `runInstr` gives. -/
theorem exec_next {i : Instr} {s t : State} (h : exec i s = .next t) :
    t = runInstr defaultParams i s := by
  rw [exec_eq_runInstr] at h
  exact (Host.Outcome.next.inj h).symm

theorem chargeOf_pos (P : Params) (m : Mode) : 2 ≤ chargeOf P m := by
  cases m <;> simp [chargeOf] <;> split <;> omega

theorem chargeOf_le_max (P : Params) (m : Mode) : chargeOf P m ≤ maxCharge P := by
  cases m <;> simp [chargeOf, maxCharge] <;> split <;> omega

end Sys2Proof.Machine
end

