-- ==== Sys2Proof/Laws/PerInstr.lean ====
section
/-! SUPPORT. Laws about every instruction as syntax, one lemma per constructor: the shape of its
encoding (spec/30_encoding.md R70, R77, R81). -/

namespace Sys2Proof.Laws.EncodingShape

/-- Under any opcode map the encoding starts with the mode's opcode byte, is as long as the opcode
says, and the instruction is well formed. -/
def Statement (i : Instr) : Prop :=
  ∀ o : OpcodeMap, (encode o i).head? = some (opcodeOf o i.mode) ∧
    (encode o i).length = instrLength i.mode ∧ i.wf = true

theorem ldaImm (d : Byte) : Statement (.ldaImm d) := fun _ => ⟨rfl, rfl, rfl⟩

theorem ldaZp (d : Byte) : Statement (.ldaZp d) := fun _ => ⟨rfl, rfl, rfl⟩

theorem ldaZpX (d : Byte) : Statement (.ldaZpX d) := fun _ => ⟨rfl, rfl, rfl⟩

theorem ldaAbs (lo hi : Byte) : Statement (.ldaAbs lo hi) := fun _ => ⟨rfl, rfl, rfl⟩

theorem ldaAbsX (lo hi : Byte) : Statement (.ldaAbsX lo hi) := fun _ => ⟨rfl, rfl, rfl⟩

theorem ldaAbsY (lo hi : Byte) : Statement (.ldaAbsY lo hi) := fun _ => ⟨rfl, rfl, rfl⟩

theorem ldaIndX (d : Byte) : Statement (.ldaIndX d) := fun _ => ⟨rfl, rfl, rfl⟩

theorem ldaIndY (d : Byte) : Statement (.ldaIndY d) := fun _ => ⟨rfl, rfl, rfl⟩

end Sys2Proof.Laws.EncodingShape
end

