-- ==== Sys2Proof/Laws/Sequencer.lean ====
section
/-! SUPPORT. What one move of the engine can do, said once: the decoder on three bytes, one
iteration, one step. -/

namespace Sys2Proof

/-- A byte that selects a mode is that mode's opcode. -/
theorem modeOf_some {o : OpcodeMap} {op : Byte} {m : Mode} (h : modeOf o op = some m) :
    op = opcodeOf o m := by
  unfold modeOf at h
  repeat' split at h
  all_goals first
    | (cases h; assumption)
    | cases h

/-- Three bytes either hold an instruction of the selected mode, with its operand bytes taken in
order, or start with an unknown opcode. -/
theorem decode_three (o : OpcodeMap) (b0 b1 b2 : Byte) :
    (∃ i rest, decode o [b0, b1, b2] = .ok (i, rest) ∧ modeOf o b0 = some i.mode ∧
        b0 :: (operandsOf i ++ rest) = [b0, b1, b2]) ∨
      (modeOf o b0 = none ∧ decode o [b0, b1, b2] = .error (.unknownOpcode b0)) := by
  cases h : modeOf o b0 with
  | none => exact .inr ⟨rfl, by simp [decode, h]⟩
  | some m =>
    refine .inl ?_
    cases m <;>
      simp [decode, h, decodeOperands, operandF2, operandF3, Instr.mode, operandsOf]

namespace Machine

/-- One iteration is a whole instruction or the exception, by what stands at PC. -/
theorem iteration_cases (P : Params) (s : State) :
    (∃ i rest, decode P.opcodes (fetchWindow s) = .ok (i, rest) ∧
        modeOf P.opcodes (memRead s s.pc) = some i.mode ∧ iteration P s = runInstr P i s) ∨
      (modeOf P.opcodes (memRead s s.pc) = none ∧
        iteration P s = raiseUnknownOpcode (memRead s s.pc) s.pc (consume s)) := by
  rcases decode_three P.opcodes (memRead s s.pc) (memRead s (s.pc + 1#16))
    (memRead s (s.pc + 2#16)) with ⟨i, rest, h, hm, -⟩ | ⟨hm, h⟩
  · exact .inl ⟨i, rest, h, hm, by simp [iteration, fetchWindow, h]⟩
  · exact .inr ⟨hm, by simp [iteration, fetchWindow, h]⟩

/-- A step is the parametric sequencer at the default parameters, and always goes on. -/
theorem step_eq_burstStep (s : State) : step s = .next (burstStep defaultParams s) := by
  unfold step engineStep burstStep iteration
  split
  · split <;> simp [exec_eq_runInstr, *]
  · rfl

end Machine

end Sys2Proof
end

