-- ==== Sys2Proof/Tests/Slice0.lean ====
section
/-! SUPPORT. Tests, each on one small state, with expected results from spec/95_test_vectors.md (named
S, V or P) or by hand from the spec's tables; the smoke test of well-formedness; and, for each
statement with hypotheses, a witness that they can be met, at the ends of their ranges. -/

namespace Sys2Proof.Tests

open Sys2Proof Sys2Proof.Machine

/-- The state after Reset with PC, X, Y, CYC and memory as given. -/
def launch (pc : Addr) (x y : Byte) (cyc : Int) (mem : List Host.Cell) : State :=
  { State.reset with pc := pc, x := x, y := y, cyc := cyc, mem := mem }

/-- A, Z, N, PC and CYC: what a vector of the spec lists. -/
def seen (s : State) : Byte × Bool × Bool × Addr × Int := (s.a, s.flagZ, s.flagN, s.pc, s.cyc)

/-- The listed elements after one step. -/
def seenAfterStep (s : State) : Option (Byte × Bool × Bool × Addr × Int) := (nextOf (step s)).map seen

/-- The default opcode map. -/
abbrev defaultMap : OpcodeMap := defaultParams.opcodes

/-! ### Well-formedness: an ill-formed map for each check -/

theorem test_default_map_well_formed : defaultMap.WellFormed := by decide

theorem test_map_with_a_repeated_opcode_refused :
    ¬({ defaultMap with zp := 0xA9#8 }).WellFormed := by decide

theorem test_map_with_opcode_ff_refused :
    ¬({ defaultMap with indY := 0xFF#8 }).WellFormed := by decide

theorem test_map_moving_absolute_refused :
    ¬({ defaultMap with abs := 0xAE#8 }).WellFormed := by decide

theorem test_another_map_well_formed :
    ({ defaultMap with imm := 0x01#8, indX := 0x00#8 }).WellFormed := by decide

theorem test_memory_out_of_order_refused : ¬Memory.wf [(5, 1#8), (3, 2#8)] := by decide

theorem test_memory_listing_a_zero_refused : ¬Memory.wf [(5, 0#8)] := by decide

theorem test_memory_beyond_the_store_refused : ¬Memory.wf [(65536, 1#8)] := by decide

/-! ### Decoding, from the bit strings of 30_encoding R74 and opcode_table.json -/

theorem test_decode_imm : decode defaultMap [0b10101001#8, 0b01111111#8] = .ok (.ldaImm 0x7F#8, []) := by
  rfl

theorem test_decode_zp : decode defaultMap [0b10100101#8, 0b00010000#8] = .ok (.ldaZp 0x10#8, []) := by
  rfl

theorem test_decode_zpx : decode defaultMap [0b10110101#8, 0b11111110#8] = .ok (.ldaZpX 0xFE#8, []) := by
  rfl

theorem test_decode_abs :
    decode defaultMap [0b10101101#8, 0b00000000#8, 0b10000000#8] = .ok (.ldaAbs 0x00#8 0x80#8, []) := by
  rfl

theorem test_decode_absx :
    decode defaultMap [0b10111101#8, 0b11110000#8, 0b00010010#8] = .ok (.ldaAbsX 0xF0#8 0x12#8, []) := by
  rfl

theorem test_decode_absy :
    decode defaultMap [0b10111001#8, 0b11111000#8, 0b11111111#8] = .ok (.ldaAbsY 0xF8#8 0xFF#8, []) := by
  rfl

theorem test_decode_indx : decode defaultMap [0b10100001#8, 0b00100000#8] = .ok (.ldaIndX 0x20#8, []) := by
  rfl

theorem test_decode_indy : decode defaultMap [0b10110001#8, 0b01000000#8] = .ok (.ldaIndY 0x40#8, []) := by
  rfl

/-- `0xFF` has no handler (30_encoding R76). -/
theorem test_decode_ff_refused : decode defaultMap [0xFF#8, 0x01#8] = .error (.unknownOpcode 0xFF#8) := by
  rfl

theorem test_decode_short_refused : decode defaultMap [0xAD#8, 0x01#8] = .error .truncated := by
  rfl

/-- The third byte of a two-byte row is not part of it: bits above `nbits` are 0. -/
theorem test_table_word_cut : tableBytes 16 0xCC7FA9 = [0xA9#8, 0x7F#8, 0x00#8] := by decide

/-! ### The instructions, one step each -/

/-- V1: `A9 7F`. -/
theorem test_imm_v1 :
    seenAfterStep (launch 0x0200 0 0 2 [(0x200, 0xA9#8), (0x201, 0x7F#8)]) =
      some (0x7F#8, false, false, 0x0202#16, 0) := by decide

/-- V3: `A9 FF`. -/
theorem test_imm_v3 :
    seenAfterStep (launch 0x0200 0 0 2 [(0x200, 0xA9#8), (0x201, 0xFF#8)]) =
      some (0xFF#8, false, true, 0x0202#16, 0) := by decide

/-- V4: `A5 10`. -/
theorem test_zp_v4 :
    seenAfterStep (launch 0x0200 0 0 3 [(0x10, 0x99#8), (0x200, 0xA5#8), (0x201, 0x10#8)]) =
      some (0x99#8, false, true, 0x0202#16, 0) := by decide

/-- V5: `A5 FF`, the last cell of the zero page. -/
theorem test_zp_v5 :
    seenAfterStep (launch 0x0200 0 0 3 [(0xFF, 0x01#8), (0x200, 0xA5#8), (0x201, 0xFF#8)]) =
      some (0x01#8, false, false, 0x0202#16, 0) := by decide

/-- V6: `B5 FF` with X = 2 reads `0x0001`, not `0x0101`. -/
theorem test_zpx_v6 :
    seenAfterStep (launch 0x0200 2 0 3
        [(1, 0x33#8), (0x101, 0x44#8), (0x200, 0xB5#8), (0x201, 0xFF#8)]) =
      some (0x33#8, false, false, 0x0202#16, 0) := by decide

/-- V8: `B5 01` with X = `0xFF` reads `0x0000`. -/
theorem test_zpx_v8 :
    seenAfterStep (launch 0x0200 0xFF 0 3
        [(0, 0x7E#8), (0x100, 0x11#8), (0x200, 0xB5#8), (0x201, 0x01#8)]) =
      some (0x7E#8, false, false, 0x0202#16, 0) := by decide

/-- S6: the source's own scenario, `AD 00 80` at `0xFFFC`. -/
theorem test_abs_s6 :
    seenAfterStep (launch 0xFFFC 0 0 4
        [(0x8000, 0x42#8), (0xFFFC, 0xAD#8), (0xFFFE, 0x80#8)]) =
      some (0x42#8, false, false, 0xFFFF#16, 0) := by decide

/-- V10: `AD 02 00` straddles the wrap of the address. -/
theorem test_abs_v10 :
    seenAfterStep (launch 0xFFFE 0 0 4 [(2, 0xEE#8), (0xFFFE, 0xAD#8), (0xFFFF, 0x02#8)]) =
      some (0xEE#8, false, true, 0x0001#16, 0) := by decide

/-- V11: `BD FF FF` with X = 1 reads `0x0000`. -/
theorem test_absx_v11 :
    seenAfterStep (launch 0x0200 1 0 4
        [(0, 0x5C#8), (0x200, 0xBD#8), (0x201, 0xFF#8), (0x202, 0xFF#8)]) =
      some (0x5C#8, false, false, 0x0203#16, 0) := by decide

/-- V12: `BD F0 12` with X = `0x20` crosses a page at no charge. -/
theorem test_absx_v12 :
    seenAfterStep (launch 0x0300 0x20 0 4
        [(0x300, 0xBD#8), (0x301, 0xF0#8), (0x302, 0x12#8), (0x1310, 0x80#8)]) =
      some (0x80#8, false, true, 0x0303#16, 0) := by decide

/-- V14: `B9 FF FF` with Y = 1 and X = 7: X plays no part. -/
theorem test_absy_v14 :
    seenAfterStep (launch 0x0200 7 1 4
        [(0, 0x5C#8), (6, 0x66#8), (0x200, 0xB9#8), (0x201, 0xFF#8), (0x202, 0xFF#8)]) =
      some (0x5C#8, false, false, 0x0203#16, 0) := by decide

/-- V15: `B9 00 20` with Y = `0xFF`, a zero datum. -/
theorem test_absy_v15 :
    seenAfterStep (launch 0x0200 0 0xFF 4 [(0x200, 0xB9#8), (0x202, 0x20#8)]) =
      some (0x00#8, true, false, 0x0203#16, 0) := by decide

/-- V16: `A1 20` with X = 4. -/
theorem test_indx_v16 :
    seenAfterStep (launch 0x0200 4 0 3
        [(0x24, 0x74#8), (0x25, 0x20#8), (0x200, 0xA1#8), (0x201, 0x20#8), (0x2074, 0x5A#8)]) =
      some (0x5A#8, false, false, 0x0202#16, 0) := by decide

/-- V18's memory: a pointer at `0xFF`. -/
def pointerAtFF : State :=
  launch 0x0200 0 0 5
    [(0x0, 0x12#8), (0xFF, 0x34#8), (0x100, 0x56#8), (0x200, 0xA1#8), (0x201, 0xFF#8),
      (0x1234, 0xAA#8), (0x5634, 0xBB#8)]

/-- V18a, V18b, V18c: the wrap of the pointer's high byte and the charge, under each setting. -/
theorem test_indx_v18 :
    seen (iteration defaultParams pointerAtFF) = (0xAA#8, false, true, 0x0202#16, 2) ∧
      seen (iteration { defaultParams with ptrHiWrap := false } pointerAtFF) =
        (0xBB#8, false, true, 0x0202#16, 2) ∧
      seen (iteration { defaultParams with chargePtrReads := true } pointerAtFF) =
        (0xAA#8, false, true, 0x0202#16, 0) := by decide

/-- V19: `B1 40` with Y = `0x10`. -/
theorem test_indy_v19 :
    seenAfterStep (launch 0x0400 0 0x10 3
        [(0x40, 0x00#8), (0x41, 0x30#8), (0x400, 0xB1#8), (0x401, 0x40#8), (0x3010, 0xC3#8)]) =
      some (0xC3#8, false, true, 0x0402#16, 0) := by decide

/-- V20: `B1 40` with base `0xFFFF` and Y = 2 reads `0x0001`. -/
theorem test_indy_v20 :
    seenAfterStep (launch 0x0400 0 2 3
        [(1, 0x07#8), (0x40, 0xFF#8), (0x41, 0xFF#8), (0x400, 0xB1#8), (0x401, 0x40#8)]) =
      some (0x07#8, false, false, 0x0402#16, 0) := by decide

/-- V26: a load leaves C, I, D, B and O as they were. -/
theorem test_flags_v26 :
    nextOf (step
        { launch 0x0200 0 0 2 [(0x200, 0xA9#8), (0x201, 0x80#8)] with
          flagC := true, flagZ := true, flagI := true, flagD := true, flagB := true
          flagO := true }) =
      some
        { launch 0x0202 0 0 0 [(0x200, 0xA9#8), (0x201, 0x80#8)] with
          a := 0x80#8, flagC := true, flagI := true, flagD := true, flagB := true
          flagO := true, flagN := true } := by decide

/-! ### The sequencer, the exception, Reset, placing a word -/

/-- V23a: a budget of 1 still completes the instruction. -/
theorem test_overdraft_v23a :
    seen (executeBurst defaultParams 1
        (launch 0xFFFC 0 0 0 [(0x8000, 0x42#8), (0xFFFC, 0xAD#8), (0xFFFE, 0x80#8)])) =
      (0x42#8, false, false, 0xFFFF#16, -3) := by decide

/-- V27: two immediate loads in a budget of 3. -/
theorem test_two_loads_v27 :
    seen (executeBurst defaultParams 3
        (launch 0x0200 0 0 0 [(0x200, 0xA9#8), (0x201, 0x01#8), (0x202, 0xA9#8)])) =
      (0x00#8, true, false, 0x0204#16, -1) := by decide

/-- V29: an unknown opcode at `0xFFFF`. -/
theorem test_unknown_v29 :
    (nextOf (step { launch 0xFFFF 0 0 2 [(0xFFFF, 0xFF#8)] with a := 0x3C#8 })).map
        (fun t => (t.pc, t.cyc, t.report, t.a)) =
      some (0x0000#16, 0, .unknownOpcode 0xFF#8 0xFFFF#16, 0x3C#8) := by decide

/-- V28: Reset keeps C, Z, B, O, N and CYC. -/
theorem test_reset_v28 :
    resetCore
        { pc := 0x1234, sp := 0xBEEF, a := 0x77, x := 1, y := 2, flagC := true, flagZ := false
          flagI := true, flagD := true, flagB := true, flagO := true, flagN := true, cyc := -2
          report := .unknownOpcode 0xFF 0x0010, mem := [(0x4000, 9)] } =
      { State.reset with
        flagC := true, flagB := true, flagO := true, flagN := true, cyc := -2 } := by decide

/-- A placed word runs as the first instruction after Reset (S6 with its datum zero). -/
theorem test_placed_word_runs :
    seenAfterStep (State.reset.withFetchWord 24 0x8000AD) =
      some (0x00#8, true, false, 0xFFFF#16, -3) := by decide

/-- A host write is refused while a burst runs. -/
theorem test_command_refused_in_a_burst :
    nextOf (command defaultParams (.writeByte 0 1) (launch 0 0 0 1 [])) = none := by decide

/-! ### Witnesses: the hypotheses of the statements can be met -/

theorem witness_DecodeInvertsEncode :
    defaultMap.WellFormed ∧ ({ defaultMap with imm := 0x01#8 }).WellFormed := by decide

theorem witness_EncodeInvertsDecode :
    decode defaultMap [0xB1#8, 0xFF#8, 0x07#8] = .ok (.ldaIndY 0xFF#8, [0x07#8]) := by rfl

theorem witness_UnknownOpcodesAreTheOtherBytes : defaultMap.WellFormed := by decide

/-- The first and the last cell. -/
theorem witness_WriteSetsOneCell :
    Memory.wf (launch 0 0 0 0 [(0, 1#8), (65535, 0xFF#8)]).mem := by decide

theorem witness_EqualReadsAreEqualMemory :
    Memory.wf [(0, 1#8), (65535, 2#8)] ∧
      ∀ n, n < 65536 →
        Memory.read [(0, 1#8), (65535, 2#8)] n =
          Memory.read (Memory.write [(65535, 2#8)] 0 1#8) n :=
  ⟨by decide, fun _ _ => rfl⟩

theorem witness_ZeroFillCellByCell :
    Memory.wf (launch 0 0 0 0 [(7, 1#8)]).mem ∧
      ∀ addr : Addr, addr ∈ (List.range 65536).map (BitVec.ofNat 16) :=
  ⟨by decide, fun addr =>
    List.mem_map.mpr ⟨addr.toNat, List.mem_range.mpr addr.isLt, by simp⟩⟩

/-- PC at the last cell, so that the window wraps. -/
theorem witness_FetchSeesPlacedBytes :
    Memory.wf (launch 0xFFFF 0 0 0 [(0, 9#8), (1, 9#8)]).mem ∧
      fetchWindow ((launch 0xFFFF 0 0 0 [(0, 9#8), (1, 9#8)]).withFetchWord 24 0x0034AD) =
        [0xAD#8, 0x34#8, 0x00#8] := by decide

/-- The last location for which the settings agree, and the one where they do not. -/
theorem witness_ZeroPagePointerRead :
    (0xFE#8 : Byte) ≠ 0xFF#8 ∧
      (readPtrZp defaultParams 0xFF#8 pointerAtFF).1 = 0x1234#16 ∧
      (readPtrZp { defaultParams with ptrHiWrap := false } 0xFF#8 pointerAtFF).1 = 0x5634#16 := by
  decide

/-- A next state of an instruction, CYC at zero before it. -/
theorem witness_LoadsWriteOnlyPcAZNCyc :
    exec (.ldaImm 0x80#8) (launch 0x0200 0 0 0 []) =
      .next { launch 0x0202 0 0 (-2) [] with a := 0x80#8, flagN := true } := by rfl

theorem witness_ChargeDependsOnOpcodeAlone :
    (Instr.ldaAbsX 0xF0#8 0x12#8).mode = (Instr.ldaAbsX 0x00#8 0x00#8).mode := by rfl

/-- PC wraps past the last cell. -/
theorem witness_PcAdvancesByLength :
    exec (.ldaImm 0x00#8) (launch 0xFFFF 0 0 0 []) =
      .next { launch 0x0001 0 0 (-2) [] with flagZ := true } := by rfl

theorem witness_ZeroIndexAddsNothing : State.reset.x = 0x00#8 ∧ State.reset.y = 0x00#8 := by decide

theorem witness_FlagUpdaterFollowsA :
    exec (.ldaZp 0x10#8) (launch 0x0200 0 0 0 []) =
      .next { launch 0x0202 0 0 (-3) [] with flagZ := true } := by rfl

/-- The least CYC that begins an instruction. -/
theorem witness_StepRunsDecodedInstruction :
    let s := launch 0x0200 0 0 1 [(0x200, 0xA9#8), (0x201, 0x7F#8)]
    0 < s.cyc ∧ (Instr.ldaImm 0x7F#8).wf = true ∧
      decode defaultMap [memRead s s.pc, memRead s (s.pc + 1#16), memRead s (s.pc + 2#16)] =
        .ok (.ldaImm 0x7F#8, [0x00#8]) :=
  ⟨by decide, rfl, rfl⟩

/-- CYC at zero and below, with an unknown opcode at PC. -/
theorem witness_IdleStepChangesNothing :
    (launch 0xFFFC 0 0 0 []).cyc ≤ 0 ∧ (launch 0xFFFC 0 0 (-3) []).cyc ≤ 0 ∧
      nextOf (step (launch 0xFFFC 0 0 0 [])) = some (launch 0xFFFC 0 0 0 []) := by decide

theorem witness_UnknownOpcodeEntry :
    let s := launch 0xFFFF 0 0 1 [(0xFFFF, 0xFF#8)]
    0 < s.cyc ∧ memRead s s.pc ∉ defaultMap.bytes := by decide

/-- One state whose step makes a report and one whose step makes none. -/
theorem witness_ReportMadeOnlyByOpcodeByte :
    (nextOf (step (launch 0xFFFC 0 0 1 []))).map (·.report) =
        some (.unknownOpcode 0x00#8 0xFFFC#16) ∧
      (nextOf (step (launch 0xFFFC 0 0 1 [(0xFFFC, 0xA9#8)]))).map (·.report) = some .none ∧
      (launch 0xFFFC 0 0 1 []).report = .none := by decide

/-- No step for a budget of zero, exactly as many as the budget for a positive one. -/
theorem witness_BurstIsIteratedSteps :
    (0 : Int).toNat ≤ 0 ∧ (-5 : Int).toNat ≤ 0 ∧ (3 : Int).toNat ≤ 3 := by decide

theorem witness_EveryBurstTerminates : (1 : Int).toNat ≤ 1 := by decide

/-- The clauses at their ends: a budget of zero; the deepest overdraft; an unknown opcode. -/
theorem witness_BudgetBounds :
    (executeBurst defaultParams 0 (launch 0xFFFC 0 0 0 [])).report = .none ∧
      (executeBurst defaultParams 1 (launch 0xFFFC 0 0 0 [(0xFFFC, 0xAD#8)])).report = .none ∧
      (executeBurst defaultParams 1 (launch 0xFFFC 0 0 0 [(0xFFFC, 0xAD#8)])).cyc =
        1 - maxCharge defaultParams ∧
      (executeBurst defaultParams 1 (launch 0xFFFC 0 0 0 [])).report ≠ .none := by decide

/-- P4: a burst overdrawn by one, then a second budget of 2. -/
theorem witness_CarriedBudgetsAccountExactly :
    let s := launch 0xFFFC 0 0 0 [(0x8000, 0x42#8), (0xFFFC, 0xAD#8), (0xFFFE, 0x80#8), (0xFFFF, 0xA9#8)]
    (0 : Int) ≤ 2 ∧ (executeBurst defaultParams 3 s).report = .none ∧
      (executeBurst defaultParams 3 s).cyc = -1 := by decide

theorem witness_LoadCountOfABurst :
    (1 : Int) ≤ 1 ∧
      (executeBurst defaultParams 1 (launch 0xFFFC 0 0 0 [(0xFFFC, 0xAD#8)])).report = .none := by
  decide

theorem witness_StepKeepsInvariant :
    (launch 0xFFFC 0 0 1 [(0xFFFC, 0xAD#8)]).Inv ∧
      (nextOf (step (launch 0xFFFC 0 0 1 [(0xFFFC, 0xAD#8)]))).isSome = true := by decide

/-- A burst under way without a report, and one just ended with a report. -/
theorem witness_ReportTellsTheTruth :
    (launch 0xFFFC 0 0 1 []).ReportTells defaultParams ∧
      State.ReportTells defaultParams
        { launch 0xFFFD 0 0 0 [] with report := .unknownOpcode 0x00#8 0xFFFC#16 } ∧
      (nextOf (step (launch 0xFFFC 0 0 1 []))).isSome = true :=
  ⟨trivial, ⟨rfl, rfl, rfl, rfl⟩, by decide⟩

theorem witness_FlagRuleIsKept :
    exec (.ldaZp 0x10#8) (launch 0x0200 0 0 0 []) =
        .next { launch 0x0202 0 0 (-3) [] with flagZ := true } ∧
    State.FlagsFollowA { launch 0xFFFC 0 0 1 [] with flagZ := true } ∧
      State.FlagsFollowA { launch 0xFFFC 0 0 1 [] with a := 0x80#8, flagN := true } ∧
      (nextOf (step (launch 0xFFFC 0 0 1 []))).isSome = true ∧
      (Command.presetFlag .c true).leavesAZN = true ∧
      State.FlagsFollowA { launch 0xFFFC 0 0 0 [] with flagZ := true } ∧
      command defaultParams (.presetFlag .c true) { launch 0xFFFC 0 0 0 [] with flagZ := true } =
        .next { launch 0xFFFC 0 0 0 [] with flagC := true, flagZ := true } :=
  ⟨rfl, by decide, by decide, by decide, rfl, by decide, rfl⟩

theorem witness_EngineNeverWritesTheRest :
    step (launch 0xFFFC 0 0 1 []) =
      .next { launch 0xFFFD 0 0 0 [] with report := .unknownOpcode 0x00#8 0xFFFC#16 } := by rfl

/-- Two machines that differ in SP and in every flag. -/
theorem witness_FlagsAndSpHaveNoInfluence :
    State.AgreeOnRead (launch 0xFFFC 0 0 1 [])
      { launch 0xFFFC 0 0 1 [] with
        sp := 0xBEEF, flagC := true, flagZ := true, flagI := true, flagD := true, flagB := true
        flagO := true, flagN := true } := by decide

/-- The instructions' results: a well-formed map, the default one and another. -/
theorem witness_LdaResults :
    defaultMap.WellFormed ∧ ({ defaultMap with zp := 0x00#8, indY := 0xFE#8 }).WellFormed := by decide

/-- Two machines that differ in all that Reset writes. -/
theorem witness_ResetKeepsFiveFlagsAndCyc :
    let s := launch 0x1234 1 2 0 [(3, 1#8)]
    let t := { launch 0x4321 5 6 0 [] with a := 9#8, flagI := true, flagD := true }
    s.flagC = t.flagC ∧ s.flagZ = t.flagZ ∧ s.flagB = t.flagB ∧ s.flagO = t.flagO ∧
      s.flagN = t.flagN ∧ s.cyc = t.cyc := by decide

/-- The least positive budget, and a step at a zero byte. -/
theorem witness_ZeroFilledMemoryEndsAtOnce :
    (1 : Int) ≤ 1 ∧ 0 < (launch 0xFFFF 0 0 1 []).cyc ∧
      memRead (launch 0xFFFF 0 0 1 []) 0xFFFF#16 = 0x00#8 := by decide

/-- Both clauses where they meet: CYC at one and at zero. -/
theorem witness_CommandsOnlyBetweenBursts :
    0 < (launch 0 0 0 1 []).cyc ∧ (launch 0 0 0 0 []).cyc ≤ 0 := by decide

theorem witness_PresetSetsOneField : (launch 0 0 0 0 []).cyc ≤ 0 := by decide

theorem witness_HostWriteIsSeen :
    (launch 0 0 0 (-3) [(3, 1#8)]).cyc ≤ 0 ∧ Memory.wf (launch 0 0 0 (-3) [(3, 1#8)]).mem := by decide

/-- Reset of a machine whose retained flags are set, then a burst begun and stepped. -/
theorem witness_ReachableStatesMeetInvariant :
    Reachable defaultParams
      (burstStep defaultParams (beginBurst 2
        (resetCore { launch 0 0 0 (-3) [(3, 1#8)] with flagC := true, flagN := true }))) :=
  .engineMove _ (.burstBegun _ 2 (.afterReset _ (by decide) (by decide)) (by decide))

end Sys2Proof.Tests
end

section
/-! The decoder and the encoder: what each answers, and that the opcode byte of a well-formed map
selects one mode (30_encoding R73 to R77). Settles O2 and O4. -/

namespace Sys2Proof

/-- The eight modes in the order of `OpcodeMap.bytes`. -/
def Mode.all : List Mode := [.imm, .zp, .zpX, .abs, .absX, .absY, .indX, .indY]

theorem Mode.mem_all (m : Mode) : m ∈ Mode.all := by cases m <;> decide

theorem bytes_eq_map_opcodeOf (o : OpcodeMap) : o.bytes = Mode.all.map (opcodeOf o) := rfl

theorem opcodeOf_mem_bytes (o : OpcodeMap) (m : Mode) : opcodeOf o m ∈ o.bytes :=
  List.mem_map_of_mem m.mem_all

/-- Pairwise distinct opcode bytes tell the modes apart (00_scope R3). -/
theorem opcodeOf_injective {o : OpcodeMap} (ho : o.bytes.Nodup) :
    Function.Injective (opcodeOf o) := by
  rw [bytes_eq_map_opcodeOf] at ho
  exact fun m m' => List.inj_on_of_nodup_map ho m.mem_all m'.mem_all

theorem modeOf_eq_none_iff {o : OpcodeMap} {op : Byte} :
    modeOf o op = none ↔ op ∉ o.bytes := by
  simp [modeOf, OpcodeMap.bytes, ite_eq_iff]

theorem modeOf_opcodeOf {o : OpcodeMap} (ho : o.bytes.Nodup) (m : Mode) :
    modeOf o (opcodeOf o m) = some m := by
  cases h : modeOf o (opcodeOf o m) with
  | none => exact absurd (opcodeOf_mem_bytes o m) (modeOf_eq_none_iff.mp h)
  | some m' => rw [opcodeOf_injective ho (modeOf_some h)]

theorem decode_of_modeOf_some {o : OpcodeMap} {op : Byte} {m : Mode} (h : modeOf o op = some m)
    (rest : List Byte) : decode o (op :: rest) = decodeOperands m rest := by
  simp [decode, h]

theorem decode_of_modeOf_none {o : OpcodeMap} {op : Byte} (h : modeOf o op = none)
    (rest : List Byte) : decode o (op :: rest) = .error (.unknownOpcode op) := by
  simp [decode, h]

theorem decodeOperands_operandsOf (i : Instr) (rest : List Byte) :
    decodeOperands i.mode (operandsOf i ++ rest) = .ok (i, rest) := by
  cases i <;> rfl

theorem operandF2_ne_unknownOpcode (mk : Byte → Instr) (bytes : List Byte) (op : Byte) :
    operandF2 mk bytes ≠ .error (.unknownOpcode op) := by
  cases bytes <;> simp [operandF2]

theorem operandF3_ne_unknownOpcode (mk : Byte → Byte → Instr) (bytes : List Byte) (op : Byte) :
    operandF3 mk bytes ≠ .error (.unknownOpcode op) := by
  match bytes with
  | [] => simp [operandF3]
  | [_] => simp [operandF3]
  | _ :: _ :: _ => simp [operandF3]

/-- Once the opcode is known, no operand byte is refused as an opcode (30_encoding R81). -/
theorem decodeOperands_ne_unknownOpcode (m : Mode) (bytes : List Byte) (op : Byte) :
    decodeOperands m bytes ≠ .error (.unknownOpcode op) := by
  cases m with
  | imm | zp | zpX | indX | indY => exact operandF2_ne_unknownOpcode _ bytes op
  | abs | absX | absY => exact operandF3_ne_unknownOpcode _ bytes op

/-- The refusal of an unknown opcode is decided by the opcode byte alone (30_encoding R76). -/
theorem decode_eq_unknownOpcode_iff (o : OpcodeMap) (op : Byte) (rest : List Byte) :
    decode o (op :: rest) = .error (.unknownOpcode op) ↔ op ∉ o.bytes := by
  rw [← modeOf_eq_none_iff]
  cases h : modeOf o op with
  | none => simp [decode_of_modeOf_none h]
  | some m => simp [decode_of_modeOf_some h, decodeOperands_ne_unknownOpcode]

/-- The default opcode bytes, sorted (30_encoding R76). -/
theorem defaultBytes_perm : defaultParams.opcodes.bytes.Perm
    [0xA1#8, 0xA5#8, 0xA9#8, 0xAD#8, 0xB1#8, 0xB5#8, 0xB9#8, 0xBD#8] := by decide

/-- Settles O2: distinct opcode bytes make the opcode select its own mode, and the mode's format takes
back exactly the operand bytes. -/
theorem decodeInvertsEncode : Obligations.DecodeInvertsEncode := by
  intro o ⟨hdistinct, _, _⟩ i rest
  calc decode o (encode o i ++ rest)
      = decodeOperands i.mode (operandsOf i ++ rest) :=
        decode_of_modeOf_some (modeOf_opcodeOf hdistinct i.mode) _
    _ = .ok (i, rest) := decodeOperands_operandsOf i rest

/-- Settles O4: an operand is never refused as an opcode, so the refusal is the failed look-up. -/
theorem unknownOpcodesAreTheOtherBytes : Obligations.UnknownOpcodesAreTheOtherBytes := by
  refine ⟨decode_eq_unknownOpcode_iff, fun o rest ⟨_, hff, _⟩ => ?_, fun op rest => ?_⟩
  · exact (decode_eq_unknownOpcode_iff o _ rest).mpr hff
  · rw [decode_eq_unknownOpcode_iff, defaultBytes_perm.mem_iff]

end Sys2Proof
end

section
/-! The host's moves and the burst: what each does to CYC, REPORT and memory, and the invariant they
all keep (00_scope R5, R7; 42_sequencer R158; 60_exceptions R171). Settles O51 and O54. -/

namespace Sys2Proof.Machine

/-! ### What the operations leave in CYC, REPORT and memory -/

@[simp] theorem setFlag_cyc (f : Flag) (v : Bool) (s : State) : (setFlag f v s).cyc = s.cyc := by
  cases f <;> rfl

@[simp] theorem setFlag_report (f : Flag) (v : Bool) (s : State) :
    (setFlag f v s).report = s.report := by
  cases f <;> rfl

@[simp] theorem setFlag_mem (f : Flag) (v : Bool) (s : State) : (setFlag f v s).mem = s.mem := by
  cases f <;> rfl

@[simp] theorem runInstr_cyc (P : Params) (i : Instr) (s : State) :
    (runInstr P i s).cyc = s.cyc - chargeOf P i.mode := by
  simp [runInstr_state]

@[simp] theorem runInstr_report (P : Params) (i : Instr) (s : State) :
    (runInstr P i s).report = s.report := by
  simp [runInstr_state]

@[simp] theorem runInstr_mem (P : Params) (i : Instr) (s : State) :
    (runInstr P i s).mem = s.mem := by
  simp [runInstr_state]

/-! ### The loop test and the burst -/

theorem burstStep_of_pos (P : Params) {s : State} (h : 0 < s.cyc) :
    burstStep P s = iteration P s := if_pos h

theorem burstStep_of_nonpos (P : Params) {s : State} (h : s.cyc ≤ 0) : burstStep P s = s :=
  if_neg (by omega)

/-- An iteration behind the loop test uses up at least one unit (42_sequencer R158): an instruction
its charge, UnknownOpcode all that is left. -/
theorem iteration_cyc_lt (P : Params) {s : State} (h : 0 < s.cyc) :
    (iteration P s).cyc < s.cyc := by
  rcases iteration_cases P s with ⟨i, _, _, _, hrun⟩ | ⟨_, hraise⟩
  · have hcharge := chargeOf_pos P i.mode
    rw [hrun, runInstr_cyc]
    omega
  · rwa [hraise, raiseUnknownOpcode_cyc]

/-- As many loop tests as CYC has units use the budget up (42_sequencer R158). -/
theorem runBurst_cyc_nonpos (P : Params) {n : Nat} {s : State} (h : s.cyc ≤ n) :
    (runBurst P n s).cyc ≤ 0 := by
  induction n generalizing s with
  | zero => exact h
  | succ n ih =>
    refine ih ?_
    by_cases hpos : 0 < s.cyc
    · have hlt := iteration_cyc_lt P hpos
      rw [burstStep_of_pos P hpos]
      omega
    · rw [burstStep_of_nonpos P (by omega)]
      omega

theorem executeBurst_cyc_nonpos (P : Params) (budget : Int) (s : State) :
    (executeBurst P budget s).cyc ≤ 0 :=
  runBurst_cyc_nonpos P (Int.self_le_toNat budget)

/-- What one loop test and iteration keeps, any number of them keeps. -/
theorem runBurst_keeps {P : Params} {I : State → Prop}
    (hstep : ∀ s, I s → I (burstStep P s)) (n : Nat) {s : State} (hs : I s) :
    I (runBurst P n s) := by
  induction n generalizing s with
  | zero => exact hs
  | succ n ih => exact ih (hstep s hs)

/-! ### The host's commands -/

theorem command_of_pos (P : Params) (c : Command) {s : State} (h : 0 < s.cyc) :
    command P c s = .refused .commandDuringBurst := if_pos h

theorem command_of_nonpos (P : Params) (c : Command) {s : State} (h : s.cyc ≤ 0) :
    command P c s = .next (runCommand P c s) := if_neg (by omega)

/-- A command that is answered was given between bursts, and ran to its end. -/
theorem command_next {P : Params} {c : Command} {s t : State} (h : command P c s = .next t) :
    s.cyc ≤ 0 ∧ t = runCommand P c s := by
  by_cases hpos : 0 < s.cyc
  · rw [command_of_pos P c hpos] at h
    cases h
  · rw [command_of_nonpos P c (by omega)] at h
    exact ⟨by omega, (Host.Outcome.next.inj h).symm⟩

/-- Every command leaves an idle machine idle: Execute by using its budget up, the others by leaving
CYC alone. -/
theorem runCommand_cyc_nonpos (P : Params) (c : Command) {s : State} (h : s.cyc ≤ 0) :
    (runCommand P c s).cyc ≤ 0 := by
  cases c with
  | execute budget => exact executeBurst_cyc_nonpos P budget s
  | presetFlag f v => exact (setFlag_cyc f v s).symm ▸ h
  | reset | writeByte | presetPc | presetSp | presetA | presetX | presetY | readBack => exact h

/-- Settles O51: the test on CYC decides the answer, and every command leaves an idle machine idle. -/
theorem commandsOnlyBetweenBursts : Obligations.CommandsOnlyBetweenBursts := by
  refine fun P c s => ⟨command_of_pos P c, fun hidle => ⟨?_, ?_, fun budget => ?_, ?_⟩⟩
  · exact ⟨_, command_of_nonpos P c hidle, runCommand_cyc_nonpos P c hidle⟩
  · exact command_of_nonpos P .reset hidle
  · exact command_of_nonpos P (.execute budget) hidle
  · exact command_of_nonpos P .readBack hidle

/-! ### The invariant -/

/-- Where no burst runs, the invariant is the canonical form of memory alone. -/
theorem inv_of_nonpos {s : State} (hmem : Memory.wf s.mem) (h : s.cyc ≤ 0) : s.Inv :=
  ⟨hmem, fun hpos => absurd hpos (by omega)⟩

theorem resetCore_inv (s : State) : (resetCore s).Inv :=
  ⟨resetCore_wf s, fun _ => resetCore_report s⟩

theorem beginBurst_inv {s : State} (hs : s.Inv) (budget : Int) : (beginBurst budget s).Inv :=
  ⟨hs.1, fun _ => beginBurst_report s budget⟩

/-- An instruction keeps REPORT and memory; UnknownOpcode sets REPORT together with CYC 0
(60_exceptions R171). -/
theorem iteration_inv (P : Params) {s : State} (hs : s.Inv) (hpos : 0 < s.cyc) :
    (iteration P s).Inv := by
  obtain ⟨hmem, hreport⟩ := hs
  rcases iteration_cases P s with ⟨i, _, _, _, hrun⟩ | ⟨_, hraise⟩
  · rw [hrun]
    exact ⟨by rwa [runInstr_mem], fun _ => by rw [runInstr_report, hreport hpos]⟩
  · rw [hraise]
    exact inv_of_nonpos hmem le_rfl

theorem burstStep_inv (P : Params) (s : State) (hs : s.Inv) : (burstStep P s).Inv := by
  by_cases hpos : 0 < s.cyc
  · rw [burstStep_of_pos P hpos]
    exact iteration_inv P hs hpos
  · rwa [burstStep_of_nonpos P (by omega)]

theorem executeBurst_inv (P : Params) (budget : Int) {s : State} (hs : s.Inv) :
    (executeBurst P budget s).Inv :=
  runBurst_keeps (burstStep_inv P) budget.toNat (beginBurst_inv hs budget)

/-- Every command keeps the invariant: the image write keeps the canonical form, and the presets
touch neither memory, CYC nor REPORT. -/
theorem runCommand_inv (P : Params) (c : Command) {s : State} (hs : s.Inv) :
    (runCommand P c s).Inv := by
  cases c with
  | reset => exact resetCore_inv s
  | execute budget => exact executeBurst_inv P budget hs
  | writeByte addr v => exact ⟨memWrite_wf hs.1 addr v, hs.2⟩
  | presetFlag f v => simpa [runCommand, State.Inv] using hs
  | presetPc | presetSp | presetA | presetX | presetY | readBack => exact hs

/-- Settles O54, by induction on how the state was reached: Reset establishes the invariant, and host
moves, the start of a burst and steps keep it. -/
theorem reachableStatesMeetInvariant : Obligations.ReachableStatesMeetInvariant := by
  intro P s hs
  induction hs with
  | afterReset s _ _ => exact resetCore_inv s
  | hostMove s t c _ hmove ih =>
    obtain ⟨-, rfl⟩ := command_next hmove
    exact runCommand_inv P c ih
  | burstBegun s budget _ _ ih => exact beginBurst_inv ih budget
  | engineMove s _ ih => exact burstStep_inv P s ih

end Sys2Proof.Machine
end

section
/-! Reads of the cell list: what a listed and an unlisted cell read as, a read after a write, and
that the canonical form is determined by its reads (20_memory R40 to R42). Settles O6. -/

namespace Sys2Proof.Machine

theorem Memory.wf_of_cons {c : Host.Cell} {m : List Host.Cell} (h : Memory.wf (c :: m)) :
    Memory.wf m :=
  ⟨h.1.of_cons, fun p hp => h.2 p (List.mem_cons_of_mem c hp)⟩

/-- An address below every listed one is not listed. -/
theorem Memory.read_of_lt {m : List Host.Cell} {n : Nat} (h : ∀ p ∈ m, n < p.1) :
    Memory.read m n = unlistedByte := by
  induction m with
  | nil => rfl
  | cons c m ih =>
    have hne : c.1 ≠ n := (h c List.mem_cons_self).ne'
    rw [Memory.read, if_neg hne, ih fun p hp => h p (List.mem_cons_of_mem c hp)]

/-- The listed cells are those that read as something else than an unlisted one. -/
theorem Memory.mem_iff_read {m : List Host.Cell} (hm : Memory.wf m) (n : Nat) (v : Byte) :
    (n, v) ∈ m ↔ Memory.read m n = v ∧ v ≠ unlistedByte := by
  induction m with
  | nil => simpa [Memory.read] using fun h : unlistedByte = v => h.symm
  | cons c m ih =>
    obtain ⟨k, u⟩ := c
    have habove : ∀ p ∈ m, k < p.1 := (List.pairwise_cons.mp hm.1).1
    have hu : u ≠ unlistedByte := (hm.2 _ List.mem_cons_self).2
    rw [List.mem_cons, ih (Memory.wf_of_cons hm), Memory.read]
    by_cases hk : k = n
    · subst hk
      rw [Memory.read_of_lt habove]
      grind
    · simp [hk, Ne.symm hk]

/-- Settles O6: the reads tell which cells are listed, and a list in rising order is determined by
its members. -/
theorem equalReadsAreEqualMemory : Obligations.EqualReadsAreEqualMemory := by
  intro m m' hm hm' hread
  have hirrefl : Std.Irrefl fun p q : Host.Cell => p.1 < q.1 := ⟨fun p => lt_irrefl p.1⟩
  have hantisymm : Std.Antisymm fun p q : Host.Cell => p.1 < q.1 :=
    ⟨fun p q hpq hqp => absurd hpq hqp.asymm⟩
  refine hm.1.eq_of_mem_iff hm'.1 fun ⟨n, v⟩ => ⟨fun h => ?_, fun h => ?_⟩
  · rwa [Memory.mem_iff_read hm', ← hread n (hm.2 _ h).1, ← Memory.mem_iff_read hm]
  · rwa [Memory.mem_iff_read hm, hread n (hm'.2 _ h).1, ← Memory.mem_iff_read hm']

theorem Memory.read_put {m : List Host.Cell} {addr : Nat} (h : ∀ p ∈ m, addr < p.1) (v : Byte)
    (n : Nat) :
    Memory.read (Memory.put addr v m) n = if n = addr then v else Memory.read m n := by
  unfold Memory.put
  split
  · next hv =>
    split
    · next hn => rw [hn, hv, Memory.read_of_lt h]
    · rfl
  · simp only [Memory.read, eq_comm]

/-- A read after a write, by the place of the written cell among the listed ones. -/
theorem Memory.read_write {m : List Host.Cell} (hm : m.Pairwise fun p q => p.1 < q.1) (addr : Nat)
    (v : Byte) (n : Nat) :
    Memory.read (Memory.write m addr v) n = if n = addr then v else Memory.read m n := by
  induction m with
  | nil => exact Memory.read_put (by simp) v n
  | cons c m ih =>
    obtain ⟨k, u⟩ := c
    obtain ⟨habove, hm⟩ := List.pairwise_cons.mp hm
    rw [Memory.write]
    split
    · next hlt =>
      refine Memory.read_put (List.forall_mem_cons.mpr ⟨hlt, fun p hp => ?_⟩) v n
      exact hlt.trans (habove p hp)
    · split
      · next heq =>
        subst heq
        rw [Memory.read_put habove, Memory.read]
        grind
      · rw [Memory.read, Memory.read, ih hm]
        grind

theorem memRead_memWrite {s : State} (hs : Memory.wf s.mem) (addr other : Addr) (v : Byte) :
    memRead (memWrite s addr v) other = if other = addr then v else memRead s other := by
  simp only [memRead, memWrite_mem, Memory.read_write hs.1, BitVec.toNat_inj]

/-- A read depends on the memory alone. -/
theorem memRead_congr {s t : State} (h : s.mem = t.mem) : memRead s = memRead t := by
  funext addr
  rw [memRead, memRead, h]

end Sys2Proof.Machine
end

section
/-! What the engine leaves alone, what it does to Z and N, and what it reads: each said of one
iteration, then of the loop test and of a burst (10_state R24, R30; 41_load R140). Settles O44, O45
and O46. -/

namespace Sys2Proof.Machine

/-! ### The untouched part of the state -/

theorem State.SameUntouched.refl (s : State) : State.SameUntouched s s :=
  ⟨rfl, rfl, rfl, rfl, rfl, rfl, rfl, rfl, rfl⟩

theorem State.SameUntouched.trans {s t u : State} (hst : State.SameUntouched s t)
    (htu : State.SameUntouched t u) : State.SameUntouched s u := by
  grind

theorem memRead_eq_of_untouched {s t : State} (h : State.SameUntouched s t) :
    memRead t = memRead s := by
  obtain ⟨-, -, -, -, -, -, -, -, hmem⟩ := h
  exact memRead_congr hmem

theorem runInstr_untouched (P : Params) (i : Instr) (s : State) :
    State.SameUntouched s (runInstr P i s) := by
  rw [runInstr_state]
  exact .refl s

theorem iteration_untouched (P : Params) (s : State) :
    State.SameUntouched s (iteration P s) := by
  rcases iteration_cases P s with ⟨i, _, _, _, hrun⟩ | ⟨_, hraise⟩
  · exact hrun ▸ runInstr_untouched P i s
  · exact hraise ▸ .refl s

/-- What every iteration keeps, the loop test with its iteration keeps. -/
theorem burstStep_keeps {P : Params} {I : State → Prop} (hiter : ∀ s, I s → I (iteration P s))
    (s : State) (hs : I s) : I (burstStep P s) := by
  unfold burstStep
  split
  · exact hiter s hs
  · exact hs

theorem burstStep_untouched (P : Params) (s : State) : State.SameUntouched s (burstStep P s) :=
  burstStep_keeps (fun t hst => hst.trans (iteration_untouched P t)) s (.refl s)

theorem executeBurst_untouched (P : Params) (budget : Int) (s : State) :
    State.SameUntouched s (executeBurst P budget s) :=
  runBurst_keeps (I := State.SameUntouched s) (fun t hst => hst.trans (burstStep_untouched P t))
    budget.toNat (.refl s)

/-- Settles O45: neither an instruction nor UnknownOpcode writes these elements, so no number of
loop tests does. -/
theorem engineNeverWritesTheRest : Obligations.EngineNeverWritesTheRest := by
  refine ⟨fun s t hstep => ?_, executeBurst_untouched⟩
  rw [step_eq_burstStep] at hstep
  obtain rfl := Host.Outcome.next.inj hstep
  have hrest := burstStep_untouched defaultParams s
  exact ⟨hrest, congrFun (memRead_eq_of_untouched hrest)⟩

/-! ### The Z/N invariant -/

theorem load_flagsFollowA (v : Byte) (s : State) : (load v s).FlagsFollowA := ⟨rfl, rfl⟩

theorem runInstr_flagsFollowA (P : Params) (i : Instr) (s : State) :
    (runInstr P i s).FlagsFollowA := load_flagsFollowA _ _

/-- An instruction establishes the invariant; UnknownOpcode writes none of A, Z and N. -/
theorem iteration_flagsFollowA (P : Params) (s : State) (hs : s.FlagsFollowA) :
    (iteration P s).FlagsFollowA := by
  rcases iteration_cases P s with ⟨i, _, _, _, hrun⟩ | ⟨_, hraise⟩
  · exact hrun ▸ runInstr_flagsFollowA P i s
  · exact hraise ▸ hs

theorem burstStep_flagsFollowA (P : Params) (s : State) (hs : s.FlagsFollowA) :
    (burstStep P s).FlagsFollowA :=
  burstStep_keeps (iteration_flagsFollowA P) s hs

theorem executeBurst_flagsFollowA (P : Params) (budget : Int) (s : State) (hs : s.FlagsFollowA) :
    (executeBurst P budget s).FlagsFollowA :=
  runBurst_keeps (burstStep_flagsFollowA P) budget.toNat hs

theorem setFlag_flagsFollowA {f : Flag} (hz : f ≠ .z) (hn : f ≠ .n) (v : Bool) {s : State}
    (hs : s.FlagsFollowA) : (setFlag f v s).FlagsFollowA := by
  cases f with
  | z => exact absurd rfl hz
  | n => exact absurd rfl hn
  | c | i | d | b | o => exact hs

theorem runCommand_flagsFollowA (P : Params) {c : Command} (hc : c.leavesAZN = true) {s : State}
    (hs : s.FlagsFollowA) : (runCommand P c s).FlagsFollowA := by
  cases c with
  | reset | execute | presetA => cases hc
  | presetFlag f v =>
    obtain ⟨hz, hn⟩ : f ≠ .z ∧ f ≠ .n := by simpa [Command.leavesAZN] using hc
    exact setFlag_flagsFollowA hz hn v hs
  | writeByte | presetPc | presetSp | presetX | presetY | readBack => exact hs

/-- Reset clears A and retains Z, so an A of 1 with Z clear breaks the invariant. -/
theorem exists_resetCore_breaks_flagsFollowA :
    ∃ s : State, s.FlagsFollowA ∧ ¬(resetCore s).FlagsFollowA :=
  ⟨{ State.reset with a := 0x01#8 }, by decide, by decide⟩

/-- Settles O44: a load establishes the invariant, and what is no load writes none of A, Z and N. -/
theorem flagRuleIsKept : Obligations.FlagRuleIsKept := by
  refine ⟨fun i s t hexec => ?_, fun s t hs hstep => ?_, executeBurst_flagsFollowA,
    fun P c s t hc hs hmove => ?_, exists_resetCore_breaks_flagsFollowA⟩
  · exact exec_next hexec ▸ runInstr_flagsFollowA defaultParams i s
  · rw [step_eq_burstStep] at hstep
    exact Host.Outcome.next.inj hstep ▸ burstStep_flagsFollowA defaultParams s hs
  · obtain ⟨-, rfl⟩ := command_next hmove
    exact runCommand_flagsFollowA P hc hs

/-! ### What execution reads -/

/-- The pointer read moves the state only by its charges. -/
theorem memRead_readPtrZp (P : Params) (p : Byte) (s : State) (addr : Addr) :
    memRead (readPtrZp P p s).2 addr = memRead s addr := by
  rw [readPtrZp_eq]
  cases P.chargePtrReads <;> rfl

/-- A pointer depends on the memory alone. -/
theorem readPtrZp_fst_congr (P : Params) (p : Byte) {s t : State} (h : s.mem = t.mem) :
    (readPtrZp P p s).1 = (readPtrZp P p t).1 := by
  simp only [readPtrZp_eq, memRead_congr h]

section
variable {s t : State} (h : State.AgreeOnRead s t)
include h

theorem memRead_eq_of_agree : memRead s = memRead t := by
  obtain ⟨-, -, -, -, -, -, hmem⟩ := h
  exact memRead_congr hmem

theorem fetchWindow_eq_of_agree : fetchWindow s = fetchWindow t := by
  have hread := memRead_eq_of_agree h
  obtain ⟨hpc, -⟩ := h
  rw [fetchWindow, fetchWindow, hread, hpc]

theorem consume_agree : State.AgreeOnRead (consume s) (consume t) := by
  obtain ⟨hpc, ha, hx, hy, hcyc, hreport, hmem⟩ := h
  exact ⟨by simp [hpc], ha, hx, hy, by simp [hcyc], hreport, hmem⟩

theorem raiseUnknownOpcode_agree (op : Byte) (pc0 : Addr) :
    State.AgreeOnRead (raiseUnknownOpcode op pc0 s) (raiseUnknownOpcode op pc0 t) := by
  obtain ⟨hpc, ha, hx, hy, -, -, hmem⟩ := h
  exact ⟨hpc, ha, hx, hy, rfl, rfl, hmem⟩

theorem beginBurst_agree (budget : Int) :
    State.AgreeOnRead (beginBurst budget s) (beginBurst budget t) := by
  obtain ⟨hpc, ha, hx, hy, -, -, hmem⟩ := h
  exact ⟨hpc, ha, hx, hy, rfl, rfl, hmem⟩

/-- The loaded value comes from the operands, X, Y and memory. -/
theorem resolve_fst_eq_of_agree (P : Params) (i : Instr) :
    (resolve P i s).1 = (resolve P i t).1 := by
  have hread := memRead_eq_of_agree h
  obtain ⟨-, -, hx, hy, -, -, hmem⟩ := h
  have hptr (p : Byte) : (readPtrZp P p (consume s)).1 = (readPtrZp P p (consume t)).1 :=
    readPtrZp_fst_congr P p hmem
  cases i with
  | ldaImm => rfl
  | ldaZp | ldaAbs => exact congrFun hread _
  | ldaZpX => simp only [resolve, resolveZpX, access, memRead_consume, hread, hx]
  | ldaAbsX => simp only [resolve, resolveAbsX, access, memRead_consume, hread, hx]
  | ldaAbsY => simp only [resolve, resolveAbsY, access, memRead_consume, hread, hy]
  | ldaIndX =>
    simp only [resolve, resolveIndX, access, memRead_readPtrZp, memRead_consume, hread, hx, hptr]
  | ldaIndY =>
    simp only [resolve, resolveIndY, access, memRead_readPtrZp, memRead_consume, hread, hy, hptr]

theorem runInstr_agree (P : Params) (i : Instr) :
    State.AgreeOnRead (runInstr P i s) (runInstr P i t) := by
  rw [runInstr_state, runInstr_state, resolve_fst_eq_of_agree (consume_agree h)]
  obtain ⟨hpc, -, hx, hy, hcyc, hreport, hmem⟩ := h
  exact ⟨by simp [hpc], rfl, hx, hy, by simp [hcyc], hreport, hmem⟩

/-- Agreeing states fetch the same window, so they run the same instruction or raise the same
exception. -/
theorem iteration_agree (P : Params) : State.AgreeOnRead (iteration P s) (iteration P t) := by
  have hread := memRead_eq_of_agree h
  have ⟨hpc, _⟩ := h
  unfold iteration
  rw [fetchWindow_eq_of_agree h]
  split
  · exact runInstr_agree h P _
  · rw [hread, hpc]
    exact raiseUnknownOpcode_agree (consume_agree h) _ _

theorem burstStep_agree (P : Params) : State.AgreeOnRead (burstStep P s) (burstStep P t) := by
  have ⟨_, _, _, _, hcyc, _⟩ := h
  unfold burstStep
  rw [hcyc]
  split
  · exact iteration_agree h P
  · exact h

theorem runBurst_agree (P : Params) (n : Nat) :
    State.AgreeOnRead (runBurst P n s) (runBurst P n t) := by
  induction n generalizing s t with
  | zero => exact h
  | succ n ih => exact ih (burstStep_agree h P)

end

/-- Settles O46: agreement is kept by the loop test with its iteration and set up again by the start
of a burst. -/
theorem flagsAndSpHaveNoInfluence : Obligations.FlagsAndSpHaveNoInfluence :=
  fun P _ _ h => ⟨burstStep_agree h P, fun budget => runBurst_agree (beginBurst_agree h budget) P _⟩

end Sys2Proof.Machine
end

section
/-! The host's presets and image write, and the values the spec gives the state after Reset
(10_state R32; 20_memory R57; 70_reset R200). Settles O48, O52 and O53. -/

namespace Sys2Proof.Machine

/-- Settles O53: the write is a `memWrite`, and a fetch is a read at PC. -/
theorem hostWriteIsSeen : Obligations.HostWriteIsSeen := by
  intro P s addr v hidle hmem
  have hself : memRead (memWrite s addr v) addr = v := by simp [memRead_memWrite hmem]
  refine ⟨memWrite s addr v, command_of_nonpos P _ hidle, hself, hself, fun other hne => ?_, rfl⟩
  rw [memRead_memWrite hmem, if_neg hne]

/-- Settles O52: an idle machine runs the command, and each preset is one field's update. -/
theorem presetSetsOneField : Obligations.PresetSetsOneField := by
  intro P s addr v bit hidle
  have hrun : ∀ c, command P c s = .next (runCommand P c s) :=
    fun c => command_of_nonpos P c hidle
  exact ⟨hrun _, hrun _, hrun _, hrun _, hrun _, hrun _, hrun _, hrun _, hrun _, hrun _, hrun _,
    hrun _⟩

/-- Settles O48: the fields of the literal, and reads of the empty list. -/
theorem resetStateHoldsSpecValues : Obligations.ResetStateHoldsSpecValues :=
  ⟨rfl, rfl, rfl, rfl, rfl, rfl, rfl, rfl, fun _ => rfl⟩

end Sys2Proof.Machine
end

section
/-! Memory under stores, and the step: cells filled one by one, the bytes placed at PC, and what a step
keeps (20_memory R41 to R43, R57; 60_exceptions R171). Settles O5, O7, O8, O32 and O41. -/

namespace Sys2Proof.Machine

/-! ### One step -/

theorem step_next {s t : State} (h : step s = .next t) : t = burstStep defaultParams s := by
  rw [step_eq_burstStep] at h
  exact (Host.Outcome.next.inj h).symm

/-- Settles O41: the step is the loop test with its iteration, which keeps the invariant. -/
theorem stepKeepsInvariant : Obligations.StepKeepsInvariant := by
  intro s t hs hstep
  obtain rfl := step_next hstep
  exact burstStep_inv defaultParams s hs

/-- Settles O32: the step is total, and memory is in the part of the state it leaves untouched. -/
theorem stepAlwaysGoesOn : Obligations.StepAlwaysGoesOn := by
  intro s
  obtain ⟨-, -, -, -, -, -, -, -, hmem⟩ := burstStep_untouched defaultParams s
  exact ⟨burstStep defaultParams s, step_eq_burstStep s, hmem⟩

/-! ### One write, and the same write to many cells -/

/-- Settles O5: the read after a write, and the frame of the record update. -/
theorem writeSetsOneCell : Obligations.WriteSetsOneCell :=
  fun _ addr other v hmem => ⟨memRead_memWrite hmem addr other v, rfl⟩

/-- Write one value to each of the cells, one write at a time (20_memory R43). -/
def fillCells (v : Byte) (cells : List Addr) (s : State) : State :=
  cells.foldl (fun t addr => memWrite t addr v) s

theorem fillCells_eq_with_mem (v : Byte) (cells : List Addr) (s : State) :
    fillCells v cells s = { s with mem := (fillCells v cells s).mem } := by
  induction cells generalizing s with
  | nil => rfl
  | cons cell cells ih => exact ih (memWrite s cell v)

theorem fillCells_wf {s : State} (hs : Memory.wf s.mem) (v : Byte) (cells : List Addr) :
    Memory.wf (fillCells v cells s).mem := by
  induction cells generalizing s with
  | nil => exact hs
  | cons cell cells ih => exact ih (memWrite_wf hs cell v)

theorem memRead_fillCells {s : State} (hs : Memory.wf s.mem) (v : Byte) (cells : List Addr)
    (addr : Addr) :
    memRead (fillCells v cells s) addr = if addr ∈ cells then v else memRead s addr := by
  induction cells generalizing s with
  | nil => rfl
  | cons cell cells ih =>
    calc memRead (fillCells v cells (memWrite s cell v)) addr
        = if addr ∈ cells then v else if addr = cell then v else memRead s addr := by
          rw [ih (memWrite_wf hs cell v), memRead_memWrite hs]
      _ = if addr ∈ cell :: cells then v else memRead s addr := by grind

/-- In canonical form only the empty list reads as zero everywhere. -/
theorem mem_eq_nil_of_memRead_eq_zero {s : State} (hs : Memory.wf s.mem)
    (hzero : ∀ addr, memRead s addr = 0x00#8) : s.mem = [] := by
  refine equalReadsAreEqualMemory s.mem [] hs Memory.wf_nil fun n hn => ?_
  have hread := hzero (BitVec.ofNat 16 n)
  rwa [memRead, BitVec.toNat_ofNat, Nat.mod_eq_of_lt hn] at hread

/-- Settles O7: after the writes every cell reads zero, so the canonical memory is the empty list of
the bulk reset. -/
theorem zeroFillCellByCell : Obligations.ZeroFillCellByCell := by
  intro s cells hmem hcover
  refine ⟨?_, fun _ => rfl⟩
  have hempty : (fillCells 0x00#8 cells s).mem = [] :=
    mem_eq_nil_of_memRead_eq_zero (fillCells_wf hmem _ cells) fun addr => by
      rw [memRead_fillCells hmem, if_pos (hcover addr)]
  calc fillCells 0x00#8 cells s
      = { s with mem := (fillCells 0x00#8 cells s).mem } := fillCells_eq_with_mem _ cells s
    _ = memZeroFill s := by rw [hempty, memZeroFill]

/-! ### The bytes placed at PC -/

/-- The three cells of the window are distinct, at the wrap too, so no store undoes another. -/
theorem fetchWindow_storeBytes {s : State} (hs : Memory.wf s.mem) (b0 b1 b2 : Byte) :
    fetchWindow (storeBytes [b0, b1, b2] s.pc s) = [b0, b1, b2] := by
  have h01 : s.pc ≠ s.pc + 1#16 := by bv_omega
  have h02 : s.pc ≠ s.pc + 1#16 + 1#16 := by bv_omega
  have h12 : s.pc + 1#16 ≠ s.pc + 1#16 + 1#16 := by bv_omega
  have h2 : s.pc + 2#16 = s.pc + 1#16 + 1#16 := by bv_omega
  have hs0 := memWrite_wf hs s.pc b0
  have hs1 := memWrite_wf hs0 (s.pc + 1#16) b1
  simp only [fetchWindow, storeBytes, memWrite_pc, h2, memRead_memWrite hs1, memRead_memWrite hs0,
    memRead_memWrite hs, h01, h02, h12, if_true, if_false]

/-- The bytes are placed in a burst under way, or a burst of one unit is begun on them. -/
theorem placeFetchWord_cases (s : State) (nbits w : Nat) :
    (0 < (storeBytes (tableBytes nbits w) s.pc s).cyc ∧
        placeFetchWord s nbits w = storeBytes (tableBytes nbits w) s.pc s) ∨
      placeFetchWord s nbits w = beginBurst 1 (storeBytes (tableBytes nbits w) s.pc s) := by
  by_cases hpos : 0 < (storeBytes (tableBytes nbits w) s.pc s).cyc
  · exact .inl ⟨hpos, if_pos hpos⟩
  · exact .inr (if_neg hpos)

/-- Settles O8: the start of a burst leaves the window as the stores made it. -/
theorem fetchSeesPlacedBytes : Obligations.FetchSeesPlacedBytes := by
  intro s nbits w hmem
  have hwindow : fetchWindow (storeBytes (tableBytes nbits w) s.pc s) = tableBytes nbits w :=
    fetchWindow_storeBytes hmem _ _ _
  rw [State.withFetchWord]
  rcases placeFetchWord_cases s nbits w with ⟨hpos, hplaced⟩ | hbegun
  · rw [hplaced]
    exact ⟨hwindow, hpos⟩
  · rw [hbegun]
    exact ⟨hwindow, Int.one_pos⟩

end Sys2Proof.Machine
end

section
/-! The decoder inverted: what it takes from the bytes when it answers an instruction (30_encoding R70
to R75), and the words of the opcode table. Settles O1 and O3. -/

namespace Sys2Proof

theorem operandF2_eq_ok_iff {mk : Byte → Instr} {bytes rest : List Byte} {i : Instr} :
    operandF2 mk bytes = .ok (i, rest) ↔ ∃ d, i = mk d ∧ bytes = d :: rest := by
  match bytes with
  | [] => simp [operandF2]
  | _ :: _ => simp [operandF2, eq_comm]

theorem operandF3_eq_ok_iff {mk : Byte → Byte → Instr} {bytes rest : List Byte} {i : Instr} :
    operandF3 mk bytes = .ok (i, rest) ↔ ∃ lo hi, i = mk lo hi ∧ bytes = lo :: hi :: rest := by
  match bytes with
  | [] => simp [operandF3]
  | [_] => simp [operandF3]
  | _ :: _ :: _ => simp [operandF3, eq_comm]

/-- The operands of a mode decode to an instruction of that mode, and are its operand bytes. -/
theorem decodeOperands_eq_ok {m : Mode} {bytes rest : List Byte} {i : Instr}
    (h : decodeOperands m bytes = .ok (i, rest)) : i.mode = m ∧ operandsOf i ++ rest = bytes := by
  cases m with
  | imm | zp | zpX | indX | indY =>
    obtain ⟨d, rfl, rfl⟩ := operandF2_eq_ok_iff.mp h
    exact ⟨rfl, rfl⟩
  | abs | absX | absY =>
    obtain ⟨lo, hi, rfl, rfl⟩ := operandF3_eq_ok_iff.mp h
    exact ⟨rfl, rfl⟩

/-- An answer of the decoder is an opcode byte that selects the instruction's mode, then the
instruction's operand bytes (30_encoding R77). -/
theorem decode_eq_ok {o : OpcodeMap} {bytes rest : List Byte} {i : Instr}
    (h : decode o bytes = .ok (i, rest)) :
    ∃ op, modeOf o op = some i.mode ∧ bytes = op :: (operandsOf i ++ rest) := by
  match bytes with
  | [] => cases h
  | op :: operands =>
    cases hm : modeOf o op with
    | none =>
      rw [decode_of_modeOf_none hm] at h
      cases h
    | some m =>
      rw [decode_of_modeOf_some hm] at h
      obtain ⟨rfl, rfl⟩ := decodeOperands_eq_ok h
      exact ⟨op, hm, rfl⟩

/-- Settles O3: the opcode byte that selected the mode is the mode's own, even where the map gives two
modes one byte. -/
theorem encodeInvertsDecode : Obligations.EncodeInvertsDecode := by
  intro o bytes rest i h
  obtain ⟨op, hop, rfl⟩ := decode_eq_ok h
  rw [modeOf_some hop]
  rfl

/-- A word that holds an instruction's encoding under the default map, its low byte first, decodes to
that instruction. -/
theorem decodeTableWord_eq_some {nbits w : Nat} {i : Instr} {rest : List Byte}
    (h : tableBytes nbits w = encode defaultParams.opcodes i ++ rest) :
    decodeTableWord nbits w = some i := by
  rw [decodeTableWord, h, decodeInvertsEncode _ (by decide) i rest]

/-- A word whose low byte is no default opcode decodes to nothing (30_encoding R76). -/
theorem decodeTableWord_eq_none {nbits w : Nat} {op : Byte} {rest : List Byte}
    (h : tableBytes nbits w = op :: rest) (hop : op ∉ defaultParams.opcodes.bytes) :
    decodeTableWord nbits w = none := by
  rw [decodeTableWord, h, (decode_eq_unknownOpcode_iff _ op rest).mpr hop]

/-- Settles O1: each word holds its row's encoding, the two-byte ones with a zero byte left over, and
neither 0xFF nor 0x00 is a default opcode. -/
theorem tableWordsDecode : Obligations.TableWordsDecode :=
  ⟨decodeTableWord_eq_some (rest := [0x00#8]) rfl,
    decodeTableWord_eq_some (rest := [0x00#8]) rfl,
    decodeTableWord_eq_some (rest := [0x00#8]) rfl,
    decodeTableWord_eq_some (rest := []) rfl,
    decodeTableWord_eq_some (rest := []) rfl,
    decodeTableWord_eq_some (rest := []) rfl,
    decodeTableWord_eq_some (rest := [0x00#8]) rfl,
    decodeTableWord_eq_some (rest := [0x00#8]) rfl,
    decodeTableWord_eq_none (op := 0xFF#8) rfl (by decide),
    decodeTableWord_eq_none (op := 0x00#8) rfl (by decide)⟩

end Sys2Proof
end

section
/-! The primitives of a read in integers: a cell by its number, the sums that wrap, the two bytes of a
pointer; and what an instruction is charged (40_fetch_access_addressing R100 to R103, R113). Settles O9,
O10, O11, O12 and O25. -/

namespace Sys2Proof.Machine

/-! ### Addresses as numbers -/

theorem memRead_eq_cellAt (s : State) (addr : Addr) : memRead s addr = cellAt s addr.toNat := by
  rw [cellAt, BitVec.ofNat_toNat, BitVec.setWidth_eq]

theorem addr_add_ofNat (addr : Addr) (n : Nat) :
    addr + BitVec.ofNat 16 n = BitVec.ofNat 16 ((addr.toNat + n) % 65536) := by
  apply BitVec.eq_of_toNat_eq
  simp

theorem zext16_toNat (v : Byte) : (zext16 v).toNat = v.toNat :=
  BitVec.toNat_setWidth_of_le (by decide)

/-- The address of a pointer's high byte, under both settings of the wrap (40 R103). -/
theorem pointerHigh_toNat (wrap : Bool) (p : Byte) :
    (if wrap then zext16 (p + 1#8) else zext16 p + 1#16).toNat =
      if wrap then (p.toNat + 1) % 256 else p.toNat + 1 := by
  cases wrap with
  | true => simp [zext16_toNat]
  | false =>
    have hp : p.toNat < 256 := p.isLt
    simp only [Bool.false_eq_true, if_false, BitVec.toNat_add, zext16_toNat, BitVec.toNat_ofNat]
    omega

/-- Two bytes as one 16-bit value, the second the low one (20_memory R45). -/
theorem pair_eq_ofNat (hi lo : Byte) : pair hi lo = BitVec.ofNat 16 (lo.toNat + 256 * hi.toNat) := by
  have hhi : hi.toNat < 256 := hi.isLt
  have hlo : lo.toNat < 256 := lo.isLt
  apply BitVec.eq_of_toNat_eq
  rw [pair, BitVec.toNat_append, ← Nat.shiftLeft_add_eq_or_of_lt hlo, Nat.shiftLeft_eq,
    BitVec.toNat_ofNat]
  omega

/-! ### Fetch, Access and Peek -/

/-- Settles O9: PC + 1 on 16 bits is the sum modulo 65,536. -/
theorem fetchReadsAdvancesCharges : Obligations.FetchReadsAdvancesCharges := by
  intro s
  rw [fetch, consume, memRead_eq_cellAt, addr_add_ofNat]

/-- Settles O10: the charge is the only change. -/
theorem accessReadsAndCharges : Obligations.AccessReadsAndCharges := by
  intro s addr
  rw [access, charge, memRead_eq_cellAt]

/-- Settles O11, by the two values of the charge parameter. -/
theorem peekChargedByParameter : Obligations.PeekChargedByParameter := by
  refine ⟨fun P s addr => ?_, rfl⟩
  rw [peek_eq, memRead_eq_cellAt]
  cases P.chargePtrReads <;> rfl

/-! ### The pointer read -/

theorem readPtrZp_eq_pointerAt (P : Params) (p : Byte) (s : State) :
    readPtrZp P p s =
      (BitVec.ofNat 16 (pointerAt P.ptrHiWrap s p.toNat),
        { s with cyc := if P.chargePtrReads then s.cyc - 2 else s.cyc }) := by
  rw [readPtrZp_eq, pair_eq_ofNat, memRead_eq_cellAt, memRead_eq_cellAt, pointerHigh_toNat,
    zext16_toNat, pointerAt]
  cases P.chargePtrReads with
  | true => simp [charge, Int.sub_sub]
  | false => rfl

/-- The wrap makes no difference to a pointer that does not straddle the end of page 0. -/
theorem pointerAt_wrap_eq_noWrap (s : State) {p : Nat} (hp : p + 1 < 256) :
    pointerAt true s p = pointerAt false s p := by
  simp [pointerAt, Nat.mod_eq_of_lt hp]

/-- Settles O12: the read is the pointer in integers, whose high byte's location reaches 256 only from
`0xFF`. -/
theorem zeroPagePointerRead : Obligations.ZeroPagePointerRead := by
  refine ⟨readPtrZp_eq_pointerAt, fun P p s hp => ?_, rfl⟩
  have hinside : p.toNat + 1 < 256 := by bv_omega
  rw [readPtrZp_eq_pointerAt, readPtrZp_eq_pointerAt, pointerAt_wrap_eq_noWrap s hinside]

/-! ### The charge -/

/-- Settles O25: an instruction lowers CYC by its mode's number in the table. -/
theorem chargeDependsOnOpcodeAlone : Obligations.ChargeDependsOnOpcodeAlone := by
  intro P
  have hcharge (i : Instr) (s : State) : s.cyc - (runInstr P i s).cyc = chargeOf P i.mode := by
    rw [runInstr_cyc, sub_sub_cancel]
  refine ⟨fun i j s t hmode => ?_, hcharge⟩
  rw [hcharge, hcharge, hmode]

end Sys2Proof.Machine
end

section
/-! The loop body as the spec writes it against decode and exec: the comparisons are the decoder's
look-up, and the bytes fetched one by one are the window's (42_sequencer R150, R153). Settles O33. -/

namespace Sys2Proof.Machine

/-- The spec's resolver of a mode, which fetches its own operand bytes (40 R104). -/
def specResolve (P : Params) : Mode → State → Byte × State
  | .imm => specResolveImm
  | .zp => specResolveZp
  | .zpX => specResolveZpX
  | .abs => specResolveAbs
  | .absX => specResolveAbsX
  | .absY => specResolveAbsY
  | .indX => specResolveIndX P
  | .indY => specResolveIndY P

/-- The comparisons of the loop body find the mode the decoder finds. -/
theorem specDispatch_eq_modeOf_elim (P : Params) (op : Byte) (pc0 : Addr) (s : State) :
    specDispatch P op pc0 s =
      (modeOf P.opcodes op).elim (raiseUnknownOpcode op pc0 s)
        fun m => loadResolved (specResolve P m s) := by
  unfold specDispatch modeOf
  repeat' split
  all_goals rfl

/-- The window holds the opcode, then what the two fetches after it would read. -/
theorem fetchWindow_eq_fetches (s : State) :
    fetchWindow s = [(fetch s).1, (fetch (fetch s).2).1, (fetch (fetch (fetch s).2).2).1] := by
  simp [fetchWindow, fetch, BitVec.add_assoc]

/-- The pointer read leaves the index that is added to its result (40 R112). -/
theorem readPtrZp_y (P : Params) (p : Byte) (s : State) : (readPtrZp P p s).2.y = s.y := by
  rw [readPtrZp_eq]
  cases P.chargePtrReads <;> rfl

/-- Where the bytes at PC are an instruction's operands, fetching them one by one resolves as the
decoded instruction does. -/
theorem specResolve_eq_resolve (P : Params) {i : Instr} {rest : List Byte} {s : State}
    (h : operandsOf i ++ rest = [(fetch s).1, (fetch (fetch s).2).1]) :
    specResolve P i.mode s = resolve P i s := by
  cases i with
  | ldaImm d | ldaZp d | ldaZpX d | ldaIndX d =>
    obtain ⟨rfl, -⟩ := List.cons.inj h
    rfl
  | ldaIndY d =>
    obtain ⟨rfl, -⟩ := List.cons.inj h
    simp only [Instr.mode, specResolve, specResolveIndY, resolve, resolveIndY, fetch, readPtrZp_y,
      consume_y]
  | ldaAbs lo hi | ldaAbsX lo hi | ldaAbsY lo hi =>
    obtain ⟨rfl, htail⟩ := List.cons.inj h
    obtain ⟨rfl, -⟩ := List.cons.inj htail
    rfl

/-- One iteration is the spec's loop body, by what stands at PC. -/
theorem iteration_eq_specLoopBody (P : Params) (s : State) : iteration P s = specLoopBody P s := by
  have hbody : specLoopBody P s =
      (modeOf P.opcodes (memRead s s.pc)).elim
        (raiseUnknownOpcode (memRead s s.pc) s.pc (consume s))
        fun m => loadResolved (specResolve P m (consume s)) :=
    specDispatch_eq_modeOf_elim P _ _ _
  rcases iteration_cases P s with ⟨i, rest, hdecode, hmode, hrun⟩ | ⟨hmode, hraise⟩
  · rw [fetchWindow_eq_fetches] at hdecode
    obtain ⟨_, -, hbytes⟩ := decode_eq_ok hdecode
    obtain ⟨-, hoperands⟩ := List.cons.inj hbytes
    calc iteration P s
        = loadResolved (resolve P i (consume s)) := hrun
      _ = loadResolved (specResolve P i.mode (consume s)) := by
          rw [specResolve_eq_resolve P (s := consume s) hoperands.symm]
      _ = specLoopBody P s := by rw [hbody, hmode, Option.elim_some]
  · rw [hraise, hbody, hmode, Option.elim_none]

/-- Settles O33: the step is the loop test with one iteration, and the iteration is the loop body. -/
theorem loopBodyAsTheSpecWritesIt : Obligations.LoopBodyAsTheSpecWritesIt := by
  refine ⟨iteration_eq_specLoopBody, fun s => ?_⟩
  rw [step_eq_burstStep, burstStep, iteration_eq_specLoopBody]

end Sys2Proof.Machine
end

section
/-! The load operation in integers: the flags it writes, the frame of every load, and that every
load completes (41_load R130, R131, R140, R141). Settles O13, O14, O23 and O24. -/

namespace Sys2Proof.Machine

/-! ### Z and N of a byte as numbers -/

theorem beq_zero_eq_decide_toNat (v : Byte) : (v == 0x00#8) = decide (v.toNat = 0) := by
  have hzero : v = 0x00#8 ↔ v.toNat = 0 := BitVec.toNat_inj.symm
  rw [beq_eq_decide, decide_eq_decide.mpr hzero]

theorem getElem_seven_eq_decide_le (v : Byte) : v[7] = decide (128 ≤ v.toNat) :=
  BitVec.msb_eq_decide v

theorem getElem_seven_eq_decide_div (v : Byte) : v[7] = decide (v.toNat / 128 = 1) := by
  have hv : v.toNat < 256 := v.isLt
  have hhalf : 128 ≤ v.toNat ↔ v.toNat / 128 = 1 := by omega
  rw [getElem_seven_eq_decide_le, decide_eq_decide.mpr hhalf]

/-! ### The flag updater and the load -/

/-- The byte 0 has a clear bit 7, so Z and N exclude each other. -/
theorem updateLoadFlags_not_z_and_n (s : State) :
    ¬((updateLoadFlags s).flagZ = true ∧ (updateLoadFlags s).flagN = true) := by
  rw [updateLoadFlags_flagZ, updateLoadFlags_flagN, beq_zero_eq_decide_toNat,
    getElem_seven_eq_decide_le, decide_eq_true_iff, decide_eq_true_iff]
  omega

theorem load_eq (v : Byte) (s : State) :
    load v s =
      { s with a := v, flagZ := decide (v.toNat = 0), flagN := decide (128 ≤ v.toNat) } := by
  rw [← beq_zero_eq_decide_toNat, ← getElem_seven_eq_decide_le]
  rfl

/-- Settles O13: Z and N are written from A alone, and a load ends with that write and touches no
other flag. -/
theorem flagUpdaterFollowsA : Obligations.FlagUpdaterFollowsA := by
  refine ⟨fun s => ⟨?_, updateLoadFlags_not_z_and_n s⟩, fun i s t hexec => ?_⟩
  · rw [updateLoadFlags, beq_zero_eq_decide_toNat, getElem_seven_eq_decide_div]
  · obtain rfl := exec_next hexec
    obtain ⟨hz, hn⟩ := runInstr_flagsFollowA defaultParams i s
    obtain ⟨-, -, -, hc, hi, hd, hb, ho, -⟩ := runInstr_untouched defaultParams i s
    rw [beq_zero_eq_decide_toNat] at hz
    rw [getElem_seven_eq_decide_div] at hn
    exact ⟨hz, hn, hc, hi, hd, hb, ho⟩

/-- Settles O14: the load overwrites A before it computes the flags, and is the last part of every
instruction. -/
theorem loadPassesTheByte : Obligations.LoadPassesTheByte :=
  ⟨fun v _ s => ⟨load_eq v s, rfl⟩, exec_eq_runInstr⟩

/-! ### The frame and the completion of every load -/

/-- A load reads no flag and keeps the five it does not write (41_load R140). -/
theorem runInstr_with_flags (P : Params) (i : Instr) (s : State) (c z ii d b o n : Bool) :
    runInstr P i { s with
        flagC := c, flagZ := z, flagI := ii, flagD := d, flagB := b, flagO := o, flagN := n } =
      { runInstr P i s with flagC := c, flagI := ii, flagD := d, flagB := b, flagO := o } := by
  have hagree : State.AgreeOnRead { s with
      flagC := c, flagZ := z, flagI := ii, flagD := d, flagB := b, flagO := o, flagN := n } s :=
    ⟨rfl, rfl, rfl, rfl, rfl, rfl, rfl⟩
  rw [runInstr_state, runInstr_state, resolve_fst_eq_of_agree (consume_agree hagree)]
  rfl

/-- Settles O23: the untouched part and REPORT stay, and the flags play no part in the value loaded. -/
theorem loadsWriteOnlyPcAZNCyc : Obligations.LoadsWriteOnlyPcAZNCyc := by
  intro i s t hexec
  obtain rfl := exec_next hexec
  have hrest := runInstr_untouched defaultParams i s
  refine ⟨hrest, runInstr_report _ i s, congrFun (memRead_eq_of_untouched hrest), ?_⟩
  intro c z ii d b o n
  rw [exec_eq_runInstr, runInstr_with_flags]

/-- Settles O24: `exec` answers a next state with no look at CYC. -/
theorem everyLoadCompletes : Obligations.EveryLoadCompletes :=
  fun i s => ⟨_, exec_eq_runInstr i s, runInstr_cyc defaultParams i s⟩

end Sys2Proof.Machine
end

section
/-! The eight instructions in integers: the byte each loads, and the whole next state with it
(41_load R132 to R139). Settles O15 to O22. -/

namespace Sys2Proof.Machine

/-! ### Effective addresses as numbers -/

/-- An operand pair as a number, high byte first as 41_load R135 writes it. -/
theorem pair_eq_ofNat_high_low (hi lo : Byte) :
    pair hi lo = BitVec.ofNat 16 (hi.toNat * 256 + lo.toNat) := by
  rw [pair_eq_ofNat, Nat.add_comm, Nat.mul_comm]

/-- An index is added on 16 bits (40 R109, R110, R112). -/
theorem ofNat_add_zext16 (n : Nat) (v : Byte) :
    BitVec.ofNat 16 n + zext16 v = BitVec.ofNat 16 ((n + v.toNat) % 65536) := by
  apply BitVec.eq_of_toNat_eq
  simp [zext16_toNat]

theorem memRead_zext16 (s : State) (d : Byte) : memRead s (zext16 d) = cellAt s d.toNat := by
  rw [memRead_eq_cellAt, zext16_toNat]

/-! ### The byte an instruction loads -/

/-- The byte an instruction loads in a state, by the integer address of its mode (41_load R132 to
R139). -/
def loadedByte (P : Params) (s : State) : Instr → Byte
  | .ldaImm d => d
  | .ldaZp d => cellAt s d.toNat
  | .ldaZpX d => cellAt s ((d.toNat + s.x.toNat) % 256)
  | .ldaAbs lo hi => cellAt s (hi.toNat * 256 + lo.toNat)
  | .ldaAbsX lo hi => cellAt s ((hi.toNat * 256 + lo.toNat + s.x.toNat) % 65536)
  | .ldaAbsY lo hi => cellAt s ((hi.toNat * 256 + lo.toNat + s.y.toNat) % 65536)
  | .ldaIndX d => cellAt s (pointerAt P.ptrHiWrap s ((d.toNat + s.x.toNat) % 256))
  | .ldaIndY d => cellAt s ((pointerAt P.ptrHiWrap s d.toNat + s.y.toNat) % 65536)

theorem readPtrZp_fst (P : Params) (p : Byte) (s : State) :
    (readPtrZp P p s).1 = BitVec.ofNat 16 (pointerAt P.ptrHiWrap s p.toNat) := by
  rw [readPtrZp_eq_pointerAt]

/-! A fetch leaves every cell as it was. -/

@[simp] theorem cellAt_consume (s : State) (n : Nat) : cellAt (consume s) n = cellAt s n := rfl

@[simp] theorem pointerAt_consume (wrap : Bool) (s : State) (p : Nat) :
    pointerAt wrap (consume s) p = pointerAt wrap s p := rfl

/-- Behind the opcode fetch the resolver answers the byte at the mode's integer address. -/
theorem resolve_consume_fst (P : Params) (i : Instr) (s : State) :
    (resolve P i (consume s)).1 = loadedByte P s i := by
  cases i with
  | ldaImm d => rfl
  | ldaZp d => exact memRead_zext16 s d
  | ldaZpX d =>
    simp only [resolve, resolveZpX, access, memRead_zext16, cellAt_consume, consume_x,
      BitVec.toNat_add, loadedByte]
  | ldaAbs lo hi => exact congrArg (memRead s) (pair_eq_ofNat_high_low hi lo)
  | ldaAbsX lo hi =>
    simp only [resolve, resolveAbsX, access, memRead_consume, consume_x, pair_eq_ofNat_high_low,
      ofNat_add_zext16, loadedByte, cellAt]
  | ldaAbsY lo hi =>
    simp only [resolve, resolveAbsY, access, memRead_consume, consume_y, pair_eq_ofNat_high_low,
      ofNat_add_zext16, loadedByte, cellAt]
  | ldaIndX d =>
    simp only [resolve, resolveIndX, access, memRead_readPtrZp, memRead_consume, consume_x,
      readPtrZp_fst, pointerAt_consume, BitVec.toNat_add, loadedByte, cellAt]
  | ldaIndY d =>
    simp only [resolve, resolveIndY, access, memRead_readPtrZp, memRead_consume, consume_y,
      readPtrZp_fst, pointerAt_consume, ofNat_add_zext16, loadedByte, cellAt]

/-! ### The next state -/

/-- A whole instruction in integers: its byte is loaded, PC moves by its length, CYC by its charge. -/
theorem runInstr_eq_afterLoad (P : Params) (i : Instr) (s : State) :
    runInstr P i s =
      afterLoad s (loadedByte P s i) (instrLength i.mode) (chargeOf P i.mode) := by
  rw [runInstr_state, resolve_consume_fst, load_eq, addr_add_ofNat]
  rfl

theorem exec_eq_afterLoad (i : Instr) (s : State) :
    exec i s =
      .next (afterLoad s (loadedByte defaultParams s i) (instrLength i.mode)
        (chargeOf defaultParams i.mode)) := by
  rw [exec_eq_runInstr, runInstr_eq_afterLoad]

theorem decode_encode {o : OpcodeMap} (ho : o.WellFormed) (i : Instr) :
    decode o (encode o i) = .ok (i, []) := by
  have h := decodeInvertsEncode o ho i []
  rwa [List.append_nil] at h

/-- Settles O15: the operand byte itself is loaded. -/
theorem ldaImmediateResult : Obligations.LdaImmediateResult :=
  fun d s => ⟨fun _ ho => ⟨rfl, decode_encode ho (.ldaImm d)⟩, exec_eq_afterLoad (.ldaImm d) s⟩

/-- Settles O16: the operand byte is an address in page 0. -/
theorem ldaZeroPageResult : Obligations.LdaZeroPageResult :=
  fun d s => ⟨fun _ ho => ⟨rfl, decode_encode ho (.ldaZp d)⟩, exec_eq_afterLoad (.ldaZp d) s⟩

/-- Settles O17: the index is added on 8 bits before the address is widened. -/
theorem ldaZeroPageXResult : Obligations.LdaZeroPageXResult :=
  fun d s => ⟨fun _ ho => ⟨rfl, decode_encode ho (.ldaZpX d)⟩, exec_eq_afterLoad (.ldaZpX d) s⟩

/-- Settles O18: a well-formed map gives the absolute mode the byte `0xAD`. -/
theorem ldaAbsoluteResult : Obligations.LdaAbsoluteResult := by
  refine fun lo hi s => ⟨fun o ho => ⟨rfl, ?_⟩, exec_eq_afterLoad (.ldaAbs lo hi) s⟩
  have ⟨_, _, hbyte⟩ := ho
  rw [← hbyte]
  exact decode_encode ho (.ldaAbs lo hi)

/-- Settles O19: X is added to the operand pair on 16 bits; the charge is the mode's alone. -/
theorem ldaAbsoluteXResult : Obligations.LdaAbsoluteXResult :=
  fun lo hi s =>
    ⟨fun _ ho => ⟨rfl, decode_encode ho (.ldaAbsX lo hi)⟩, exec_eq_afterLoad (.ldaAbsX lo hi) s⟩

/-- Settles O20: Y is added to the operand pair on 16 bits; the charge is the mode's alone. -/
theorem ldaAbsoluteYResult : Obligations.LdaAbsoluteYResult :=
  fun lo hi s =>
    ⟨fun _ ho => ⟨rfl, decode_encode ho (.ldaAbsY lo hi)⟩, exec_eq_afterLoad (.ldaAbsY lo hi) s⟩

/-- Settles O21: `exec` is the parametric run with the wrap and without the charge of the pointer
reads. -/
theorem ldaIndirectXResult : Obligations.LdaIndirectXResult :=
  fun d s => ⟨fun _ ho => ⟨rfl, decode_encode ho (.ldaIndX d)⟩, exec_eq_afterLoad (.ldaIndX d) s,
    fun P => runInstr_eq_afterLoad P (.ldaIndX d) s⟩

/-- Settles O22: Y is added to the pointer read, on 16 bits. -/
theorem ldaIndirectYResult : Obligations.LdaIndirectYResult :=
  fun d s => ⟨fun _ ho => ⟨rfl, decode_encode ho (.ldaIndY d)⟩, exec_eq_afterLoad (.ldaIndY d) s,
    fun P => runInstr_eq_afterLoad P (.ldaIndY d) s⟩

end Sys2Proof.Machine
end

section
/-! The loop test by its two answers: what an idle machine, an instruction and an unknown opcode do to
one step, and how many loop tests a burst takes (42_sequencer R151, R153, R154, R158; 60_exceptions
R171). Settles O26, O28, O29, O30, O34, O35, O37 and O40. -/

namespace Sys2Proof.Machine

/-! ### One step by what stands at PC -/

theorem step_of_pos {s : State} (h : 0 < s.cyc) : step s = .next (iteration defaultParams s) := by
  rw [step_eq_burstStep, burstStep_of_pos defaultParams h]

theorem iteration_of_decode {P : Params} {s : State} {i : Instr} {rest : List Byte}
    (h : decode P.opcodes (fetchWindow s) = .ok (i, rest)) : iteration P s = runInstr P i s := by
  rw [iteration, h]

theorem iteration_of_unknown {P : Params} {s : State} (h : memRead s s.pc ∉ P.opcodes.bytes) :
    iteration P s = raiseUnknownOpcode (memRead s s.pc) s.pc (consume s) := by
  rw [iteration, fetchWindow, (decode_eq_unknownOpcode_iff _ _ _).mpr h]

/-- Settles O28: the three bytes are the fetch window, and the parametric run is `exec`. -/
theorem stepRunsDecodedInstruction : Obligations.StepRunsDecodedInstruction := by
  intro s i rest hpos _ hdecode
  rw [step_of_pos hpos, iteration_of_decode hdecode, exec_eq_runInstr]

/-- Settles O29: the loop test fails, so the step is the identity. -/
theorem idleStepChangesNothing : Obligations.IdleStepChangesNothing := by
  intro s hidle
  rw [step_eq_burstStep, burstStep_of_nonpos defaultParams hidle]

/-- Settles O30: the opcode fetch moves PC past the byte, and the exception overwrites the charged CYC
and REPORT. -/
theorem unknownOpcodeEntry : Obligations.UnknownOpcodeEntry := by
  intro s hpos hunknown
  rw [step_of_pos hpos, iteration_of_unknown hunknown, ← addr_add_ofNat]
  rfl

theorem encode_length (o : OpcodeMap) (i : Instr) : (encode o i).length = instrLength i.mode := by
  cases i <;> rfl

/-- Settles O26: PC moves by the length the mode gives, which is the encoding's. -/
theorem pcAdvancesByLength : Obligations.PcAdvancesByLength := by
  intro o i s t hexec
  obtain rfl := exec_next hexec
  rw [runInstr_eq_afterLoad, encode_length, afterLoad]

/-! ### Loop tests in a row -/

theorem runBurst_succ (P : Params) (n : Nat) (s : State) :
    runBurst P (n + 1) s = runBurst P n (burstStep P s) := rfl

theorem runBurst_eq_iterate_burstStep (P : Params) (n : Nat) (s : State) :
    runBurst P n s = (burstStep P)^[n] s := by
  induction n generalizing s with
  | zero => rfl
  | succ n ih => exact ih (burstStep P s)

theorem runBurst_add (P : Params) (m n : Nat) (s : State) :
    runBurst P (m + n) s = runBurst P n (runBurst P m s) := by
  simp only [runBurst_eq_iterate_burstStep, Nat.add_comm m n, Function.iterate_add_apply]

/-- Once the loop test fails, further loop tests change nothing (42_sequencer R151). -/
theorem runBurst_of_nonpos (P : Params) (n : Nat) {s : State} (h : s.cyc ≤ 0) :
    runBurst P n s = s := by
  rw [runBurst_eq_iterate_burstStep, Function.iterate_fixed (burstStep_of_nonpos P h)]

/-- Any number of loop tests from the budget on is the whole burst. -/
theorem runBurst_beginBurst_eq_executeBurst (P : Params) {budget : Int} {n : Nat}
    (h : budget.toNat ≤ n) (s : State) :
    runBurst P n (beginBurst budget s) = executeBurst P budget s := by
  obtain ⟨extra, rfl⟩ := Nat.exists_eq_add_of_le h
  rw [runBurst_add]
  exact runBurst_of_nonpos P extra (executeBurst_cyc_nonpos P budget s)

/-- Settles O35: the budget is used up, so the loop test fails and goes on failing. -/
theorem everyBurstTerminates : Obligations.EveryBurstTerminates :=
  fun P budget s => ⟨executeBurst_cyc_nonpos P budget s, fun _ hn =>
    runBurst_beginBurst_eq_executeBurst P hn s⟩

/-- A machine whose step always goes on runs by iterating what its step does. -/
theorem run_eq_iterate {M : Host.Core} {f : M.State → M.State} (h : ∀ s, M.step s = .next (f s))
    (n : Nat) (s : M.State) : M.run n s = .next (f^[n] s) := by
  induction n generalizing s with
  | zero => rfl
  | succ n ih => rw [Host.Core.run, h, Function.iterate_succ_apply, ← ih]

/-- The model's step is such a step, so its run is a run of loop tests. -/
theorem core_run_eq_runBurst (n : Nat) (s : State) :
    Host.Core.run Sys2Proof.core n s = .next (runBurst defaultParams n s) := by
  rw [runBurst_eq_iterate_burstStep]
  exact run_eq_iterate (M := Sys2Proof.core) step_eq_burstStep n s

/-- Settles O34: the host's run is a run of loop tests, and the surplus ones are idle. -/
theorem burstIsIteratedSteps : Obligations.BurstIsIteratedSteps := by
  intro budget s n hn
  rw [core_run_eq_runBurst, runBurst_beginBurst_eq_executeBurst defaultParams hn]

/-- Settles O40: a budget of 1 takes one loop test, which uses it up. -/
theorem executeOneSingleSteps : Obligations.ExecuteOneSingleSteps :=
  fun s => ⟨step_eq_burstStep (beginBurst 1 s), executeBurst_cyc_nonpos defaultParams 1 s⟩

/-- Settles O37: the start of a burst overwrites CYC and REPORT. -/
theorem overdraftIsNotCarriedOver : Obligations.OverdraftIsNotCarriedOver :=
  fun _ _ _ => ⟨rfl, rfl, fun _ _ => rfl⟩

end Sys2Proof.Machine
end

section
/-! The bounds on CYC along a burst, each an invariant of the iteration behind the loop test
(42_sequencer R156, R157, R161). Settles O36. -/

namespace Sys2Proof.Machine

/-- What every iteration begun with CYC positive keeps, any number of loop tests keeps. -/
theorem runBurst_keeps_of_pos {P : Params} {I : State → Prop}
    (hiter : ∀ s, 0 < s.cyc → I s → I (iteration P s)) (n : Nat) {s : State} (hs : I s) :
    I (runBurst P n s) := by
  refine runBurst_keeps (fun t ht => ?_) n hs
  by_cases hpos : 0 < t.cyc
  · rw [burstStep_of_pos P hpos]
    exact hiter t hpos ht
  · rwa [burstStep_of_nonpos P (by omega)]

theorem executeBurst_of_nonpos (P : Params) {budget : Int} (h : budget ≤ 0) (s : State) :
    executeBurst P budget s = { s with cyc := budget, report := .none } := by
  rw [executeBurst, runBurst_of_nonpos P _ (s := beginBurst budget s) h, beginBurst]

theorem burstStep_cyc_lt (P : Params) {s : State} (h : 0 < s.cyc) :
    (burstStep P s).cyc < s.cyc := by
  rw [burstStep_of_pos P h]
  exact iteration_cyc_lt P h

/-- CYC never exceeds the budget (42_sequencer R156). -/
theorem runBurst_cyc_le (P : Params) (n : Nat) (s : State) : (runBurst P n s).cyc ≤ s.cyc :=
  runBurst_keeps_of_pos (I := fun t => t.cyc ≤ s.cyc)
    (fun _ hpos hle => (iteration_cyc_lt P hpos).le.trans hle) n le_rfl

theorem two_le_maxCharge (P : Params) : 2 ≤ maxCharge P :=
  (chargeOf_pos P .imm).trans (chargeOf_le_max P .imm)

/-- An instruction begun with one unit left overdraws by at most its charge less that unit; an unknown
opcode overdraws by nothing. -/
theorem iteration_cyc_ge (P : Params) {s : State} (h : 0 < s.cyc) :
    1 - maxCharge P ≤ (iteration P s).cyc := by
  rcases iteration_cases P s with ⟨i, _, _, _, hrun⟩ | ⟨_, hraise⟩
  · have hcharge := chargeOf_le_max P i.mode
    rw [hrun, runInstr_cyc]
    omega
  · have hmax := two_le_maxCharge P
    rw [hraise, raiseUnknownOpcode_cyc]
    omega

theorem executeBurst_cyc_ge (P : Params) {budget : Int} (h : 1 ≤ budget) (s : State) :
    1 - maxCharge P ≤ (executeBurst P budget s).cyc := by
  have hmax := two_le_maxCharge P
  have hstart : 1 - maxCharge P ≤ (beginBurst budget s).cyc := by
    rw [beginBurst_cyc]
    omega
  exact runBurst_keeps_of_pos (I := fun t => 1 - maxCharge P ≤ t.cyc)
    (fun _ hpos _ => iteration_cyc_ge P hpos) budget.toNat hstart

/-- A report is made only together with CYC 0, after which no iteration follows (60_exceptions
R171). -/
theorem executeBurst_cyc_eq_zero_of_report (P : Params) (budget : Int) (s : State) :
    (executeBurst P budget s).report ≠ .none → (executeBurst P budget s).cyc = 0 := by
  refine runBurst_keeps_of_pos (I := fun t => t.report ≠ .none → t.cyc = 0)
    (fun t hpos hzero => ?_) budget.toNat fun h => absurd rfl h
  rcases iteration_cases P t with ⟨i, _, _, _, hrun⟩ | ⟨_, hraise⟩
  · rw [hrun, runInstr_report]
    exact fun hreport => absurd (hzero hreport) hpos.ne'
  · exact fun _ => hraise ▸ rfl

/-- Settles O36: each bound is kept by every iteration behind the loop test, and holds at the start of
the burst. -/
theorem budgetBounds : Obligations.BudgetBounds := by
  intro P budget s
  refine ⟨fun h => executeBurst_of_nonpos P h s, fun h _ => ⟨?_, ?_⟩,
    executeBurst_cyc_eq_zero_of_report P budget s, fun n => runBurst_cyc_le P n _,
    fun t => ⟨?_, fun addr => ?_, burstStep_cyc_lt P⟩, rfl⟩
  · exact executeBurst_cyc_ge P h s
  · exact executeBurst_cyc_nonpos P budget s
  · exact Int.sub_one_lt_of_le le_rfl
  · exact Int.sub_one_lt_of_le le_rfl

end Sys2Proof.Machine
end

section
/-! A burst as the iteration of the loop body, as often as the loop test holds: what a number of loads
is charged, and that a larger budget only lets the iteration go on (42_sequencer R158, R162). Settles
O38 and O39. -/

namespace Sys2Proof.Machine

/-! ### The iterations of a burst -/

/-- Each of `k` iterations of the loop body begins with CYC positive. -/
def LoopTestsHold (P : Params) (k : Nat) (s : State) : Prop :=
  ∀ j, j < k → 0 < ((iteration P)^[j] s).cyc

theorem loopTestsHold_zero (P : Params) (s : State) : LoopTestsHold P 0 s :=
  fun _ hj => absurd hj (Nat.not_lt_zero _)

theorem loopTestsHold_succ_iff {P : Params} {k : Nat} {s : State} :
    LoopTestsHold P (k + 1) s ↔ 0 < s.cyc ∧ LoopTestsHold P k (iteration P s) :=
  Nat.forall_lt_succ_left

/-- While the loop tests hold, loop tests are iterations. -/
theorem runBurst_of_loopTestsHold {P : Params} {k : Nat} {s : State} (h : LoopTestsHold P k s) :
    runBurst P k s = (iteration P)^[k] s := by
  induction k generalizing s with
  | zero => rfl
  | succ k ih =>
    obtain ⟨hpos, hrest⟩ := loopTestsHold_succ_iff.mp h
    rw [runBurst_succ, burstStep_of_pos P hpos, ih hrest, Function.iterate_succ_apply]

/-- A run of loop tests is as many iterations as tests hold. -/
theorem runBurst_eq_iterate_iteration (P : Params) (n : Nat) (s : State) :
    ∃ k, runBurst P n s = (iteration P)^[k] s ∧ LoopTestsHold P k s := by
  induction n generalizing s with
  | zero => exact ⟨0, rfl, loopTestsHold_zero P s⟩
  | succ n ih =>
    by_cases hpos : 0 < s.cyc
    · obtain ⟨k, hrun, hrest⟩ := ih (iteration P s)
      refine ⟨k + 1, ?_, loopTestsHold_succ_iff.mpr ⟨hpos, hrest⟩⟩
      rw [runBurst_succ, burstStep_of_pos P hpos, hrun, Function.iterate_succ_apply]
    · exact ⟨0, runBurst_of_nonpos P (n + 1) (by omega), loopTestsHold_zero P s⟩

theorem executeBurst_eq_iterate_iteration (P : Params) (budget : Int) (s : State) :
    ∃ k, executeBurst P budget s = (iteration P)^[k] (beginBurst budget s) ∧
      LoopTestsHold P k (beginBurst budget s) :=
  runBurst_eq_iterate_iteration P budget.toNat (beginBurst budget s)

/-! ### Iterations that make no report -/

/-- An iteration after which REPORT is None was an instruction, and REPORT was None before it. -/
theorem iteration_report_none {P : Params} {s : State} (h : (iteration P s).report = .none) :
    s.report = .none ∧ ∃ i rest, decode P.opcodes (fetchWindow s) = .ok (i, rest) ∧
      iteration P s = runInstr P i s := by
  rcases iteration_cases P s with ⟨i, rest, hdecode, _, hrun⟩ | ⟨_, hraise⟩
  · rw [hrun, runInstr_report] at h
    exact ⟨h, i, rest, hdecode, hrun⟩
  · rw [hraise, raiseUnknownOpcode_report] at h
    cases h

/-- Iterations that end without a report are all instructions, so each is charged between 2 and
`maxCharge`. -/
theorem iterate_charge_bounds {P : Params} {k : Nat} {s : State}
    (h : ((iteration P)^[k] s).report = .none) :
    2 * (k : Int) ≤ s.cyc - ((iteration P)^[k] s).cyc ∧
      s.cyc - ((iteration P)^[k] s).cyc ≤ maxCharge P * k := by
  induction k with
  | zero => simp
  | succ k ih =>
    rw [Function.iterate_succ_apply'] at h ⊢
    obtain ⟨hbefore, i, _, _, hrun⟩ := iteration_report_none h
    obtain ⟨hmin, hmax⟩ := ih hbefore
    have hcharge := chargeOf_pos P i.mode
    have hle := chargeOf_le_max P i.mode
    rw [hrun, runInstr_cyc, Nat.cast_succ, mul_add (maxCharge P), mul_one]
    omega

/-- A positive number of iterations ends with one begun at a CYC of at least 1, which the ones before
it left over. -/
theorem two_mul_le_of_loopTestsHold {P : Params} {k : Nat} {s : State} (hs : 0 ≤ s.cyc)
    (htests : LoopTestsHold P k s) (h : ((iteration P)^[k] s).report = .none) :
    2 * (k : Int) ≤ s.cyc + 1 := by
  cases k with
  | zero => omega
  | succ k =>
    have hpos := htests k (Nat.lt_succ_self k)
    rw [Function.iterate_succ_apply'] at h
    obtain ⟨hbefore, -⟩ := iteration_report_none h
    obtain ⟨hmin, -⟩ := iterate_charge_bounds hbefore
    omega

/-- Settles O39: every iteration of the burst is a load, charged 2 to 4; the last one begins with CYC
at least 1, and the burst ends with CYC at most 0. -/
theorem loadCountOfABurst : Obligations.LoadCountOfABurst := by
  intro budget s hbudget hreport
  obtain ⟨k, hrun, htests⟩ := executeBurst_eq_iterate_iteration defaultParams budget s
  have hend := executeBurst_cyc_nonpos defaultParams budget s
  rw [hrun] at hreport hend
  have hceil := two_mul_le_of_loopTestsHold (by rw [beginBurst_cyc]; omega) htests hreport
  obtain ⟨-, hmax⟩ := iterate_charge_bounds hreport
  rw [beginBurst_cyc] at hceil hmax
  refine ⟨k, hrun, htests, hceil, ?_⟩
  calc budget ≤ budget - ((iteration defaultParams)^[k] (beginBurst budget s)).cyc := by omega
    _ ≤ 4 * (k : Int) := hmax

/-! ### A larger budget -/

/-- The same state with `d` more units of budget. -/
def addBudget (d : Int) (s : State) : State := { s with cyc := s.cyc + d }

@[simp] theorem addBudget_cyc (d : Int) (s : State) : (addBudget d s).cyc = s.cyc + d := rfl

theorem addBudget_beginBurst (d budget : Int) (s : State) :
    addBudget d (beginBurst budget s) = beginBurst (budget + d) s := rfl

theorem addBudget_eq_beginBurst {d : Int} {s : State} (h : s.report = .none) :
    addBudget d s = beginBurst (d + s.cyc) s := by
  rw [addBudget, beginBurst, ← h, Int.add_comm]

/-- The loaded byte does not depend on CYC. -/
theorem loadedByte_addBudget (P : Params) (d : Int) (s : State) (i : Instr) :
    loadedByte P (addBudget d s) i = loadedByte P s i := by
  cases i <;> rfl

theorem runInstr_addBudget (P : Params) (i : Instr) (d : Int) (s : State) :
    runInstr P i (addBudget d s) = addBudget d (runInstr P i s) := by
  have hcyc : s.cyc + d - chargeOf P i.mode = s.cyc - chargeOf P i.mode + d := by omega
  rw [runInstr_eq_afterLoad, runInstr_eq_afterLoad, loadedByte_addBudget, afterLoad, addBudget_cyc,
    hcyc]
  rfl

/-- Iterations that make no report are charged the same whatever CYC holds (42_sequencer R152). -/
theorem iterate_addBudget {P : Params} {k : Nat} {s : State} (d : Int)
    (h : ((iteration P)^[k] s).report = .none) :
    (iteration P)^[k] (addBudget d s) = addBudget d ((iteration P)^[k] s) := by
  induction k with
  | zero => rfl
  | succ k ih =>
    rw [Function.iterate_succ_apply'] at h
    obtain ⟨hbefore, i, rest, hdecode, hrun⟩ := iteration_report_none h
    rw [Function.iterate_succ_apply', Function.iterate_succ_apply', ih hbefore, hrun,
      ← runInstr_addBudget]
    exact iteration_of_decode hdecode

theorem iterate_report_none_of_le {P : Params} {j k : Nat} (hjk : j ≤ k) {s : State}
    (h : ((iteration P)^[k] s).report = .none) : ((iteration P)^[j] s).report = .none := by
  induction k, hjk using Nat.le_induction with
  | base => exact h
  | succ k _ ih =>
    rw [Function.iterate_succ_apply'] at h
    obtain ⟨hbefore, -⟩ := iteration_report_none h
    exact ih hbefore

theorem loopTestsHold_addBudget {P : Params} {k : Nat} {s : State} {d : Int} (hd : 0 ≤ d)
    (htests : LoopTestsHold P k s) (h : ((iteration P)^[k] s).report = .none) :
    LoopTestsHold P k (addBudget d s) := by
  intro j hj
  have hpos := htests j hj
  rw [iterate_addBudget d (iterate_report_none_of_le hj.le h), addBudget_cyc]
  omega

/-- With more budget a burst that ended without a report first does the same, then has what was left
over and the additional units to go on with. -/
theorem runBurst_addBudget {P : Params} {n : Nat} {s : State} {d : Int} (hd : 0 ≤ d)
    (h : (runBurst P n s).report = .none) :
    ∃ k, runBurst P k (addBudget d s) = addBudget d (runBurst P n s) := by
  obtain ⟨k, hrun, htests⟩ := runBurst_eq_iterate_iteration P n s
  rw [hrun] at h ⊢
  refine ⟨k, ?_⟩
  rw [runBurst_of_loopTestsHold (loopTestsHold_addBudget hd htests h), iterate_addBudget d h]

/-- Settles O38: the burst of both budgets passes through the start of the second burst, and enough
loop tests end both. -/
theorem carriedBudgetsAccountExactly : Obligations.CarriedBudgetsAccountExactly := by
  intro P first second s hsecond hreport
  obtain ⟨k, hpass⟩ := runBurst_addBudget hsecond hreport
  replace hpass : runBurst P k (beginBurst (first + second) s) =
      beginBurst (second + (executeBurst P first s).cyc) (executeBurst P first s) :=
    hpass.trans (addBudget_eq_beginBurst hreport)
  have hle : (executeBurst P first s).cyc ≤ first := runBurst_cyc_le P _ _
  calc executeBurst P (second + (executeBurst P first s).cyc) (executeBurst P first s)
      = runBurst P (first + second).toNat (runBurst P k (beginBurst (first + second) s)) := by
        rw [hpass, runBurst_beginBurst_eq_executeBurst P (by omega)]
    _ = runBurst P (k + (first + second).toNat) (beginBurst (first + second) s) :=
        (runBurst_add P k _ _).symm
    _ = executeBurst P (first + second) s :=
        runBurst_beginBurst_eq_executeBurst P (Nat.le_add_left _ k) s

end Sys2Proof.Machine
end

section
/-! Reports: what one says of the state it is made in, and by which byte it is made (60_exceptions R170
to R172). Settles O31 and O43. -/

namespace Sys2Proof.Machine

/-! ### What a report tells -/

theorem reportTells_of_report_none {P : Params} {s : State} (h : s.report = .none) :
    s.ReportTells P := by
  rw [State.ReportTells, h]
  trivial

/-- A report tells of CYC 0, so a burst under way has made none. -/
theorem State.ReportTells.report_none_of_pos {P : Params} {s : State} (hs : s.ReportTells P)
    (hpos : 0 < s.cyc) : s.report = .none := by
  cases hreport : s.report with
  | none => rfl
  | unknownOpcode op addr =>
    rw [State.ReportTells, hreport] at hs
    obtain ⟨-, -, -, hcyc⟩ := hs
    exact absurd hcyc hpos.ne'

/-- The exception after an opcode fetch names the byte fetched, which PC has just passed. -/
theorem raiseUnknownOpcode_reportTells {P : Params} {s : State}
    (h : modeOf P.opcodes (memRead s s.pc) = none) :
    (raiseUnknownOpcode (memRead s s.pc) s.pc (consume s)).ReportTells P :=
  ⟨rfl, h, rfl, rfl⟩

/-- An instruction keeps REPORT, which behind the loop test is None; UnknownOpcode makes a report that
tells the truth. -/
theorem iteration_reportTells (P : Params) (s : State) (hpos : 0 < s.cyc) (hs : s.ReportTells P) :
    (iteration P s).ReportTells P := by
  rcases iteration_cases P s with ⟨i, _, _, _, hrun⟩ | ⟨hmode, hraise⟩
  · apply reportTells_of_report_none
    rw [hrun, runInstr_report, hs.report_none_of_pos hpos]
  · rw [hraise]
    exact raiseUnknownOpcode_reportTells hmode

theorem runBurst_reportTells (P : Params) (n : Nat) {s : State} (hs : s.ReportTells P) :
    (runBurst P n s).ReportTells P :=
  runBurst_keeps_of_pos (iteration_reportTells P) n hs

/-- Settles O43: a step is one loop test, and a burst begins with REPORT None, of which nothing is
told. -/
theorem reportTellsTheTruth : Obligations.ReportTellsTheTruth := by
  refine ⟨fun s t hs hstep => ?_, fun P budget s => ?_⟩
  · obtain rfl := step_next hstep
    exact runBurst_reportTells defaultParams 1 hs
  · exact runBurst_reportTells P budget.toNat
      (reportTells_of_report_none (beginBurst_report s budget))

/-! ### What makes a report -/

/-- Begun without a report, an iteration makes one exactly by raising UnknownOpcode, which the byte at
PC alone decides. -/
theorem iteration_report_ne_none_iff {P : Params} {s : State} (h : s.report = .none) :
    (iteration P s).report ≠ .none ↔ memRead s s.pc ∉ P.opcodes.bytes := by
  rw [← modeOf_eq_none_iff]
  rcases iteration_cases P s with ⟨i, _, _, hmode, hrun⟩ | ⟨hmode, hraise⟩
  · rw [hrun, runInstr_report, hmode]
    simp [h]
  · rw [hraise, raiseUnknownOpcode_report]
    simp [hmode]

/-- Settles O31: the step is an iteration under the default parameters. -/
theorem reportMadeOnlyByOpcodeByte : Obligations.ReportMadeOnlyByOpcodeByte := by
  intro s t hpos hreport hstep
  rw [step_of_pos hpos] at hstep
  obtain rfl := Host.Outcome.next.inj hstep
  exact iteration_report_ne_none_iff hreport

end Sys2Proof.Machine
end

section
/-! Index registers of zero: what a resolver answers then depends on the plain form alone (70_reset
R209). Settles O27. -/

namespace Sys2Proof.Machine

/-- An instruction is its resolver behind the opcode fetch, then the load; nothing else of it counts. -/
theorem exec_eq_of_resolve_eq {i j : Instr} {s : State}
    (h : resolve defaultParams i (consume s) = resolve defaultParams j (consume s)) :
    exec i s = exec j s := by
  rw [exec_eq_runInstr, exec_eq_runInstr, runInstr, runInstr, h]

theorem add_zext16_zero (addr : Addr) : addr + zext16 0x00#8 = addr := BitVec.add_zero addr

theorem resolveZpX_of_x_zero (d : Byte) {s : State} (hx : s.x = 0x00#8) :
    resolveZpX d s = resolveZp d s := by
  rw [resolveZpX, resolveZp, hx, BitVec.add_zero]

theorem resolveAbsX_of_x_zero (lo hi : Byte) {s : State} (hx : s.x = 0x00#8) :
    resolveAbsX lo hi s = resolveAbs lo hi s := by
  rw [resolveAbsX, resolveAbs, hx, add_zext16_zero]

theorem resolveAbsY_of_y_zero (lo hi : Byte) {s : State} (hy : s.y = 0x00#8) :
    resolveAbsY lo hi s = resolveAbs lo hi s := by
  rw [resolveAbsY, resolveAbs, hy, add_zext16_zero]

/-- X of zero leaves the pointer's location at `d`, Y of zero the address read at the pointer. -/
theorem resolveIndX_eq_resolveIndY_of_zero (P : Params) (d : Byte) {s : State} (hx : s.x = 0x00#8)
    (hy : s.y = 0x00#8) : resolveIndX P d s = resolveIndY P d s := by
  simp only [resolveIndX, resolveIndY, hx, hy, BitVec.add_zero, add_zext16_zero]

/-- Settles O27: the opcode fetch leaves X and Y as they are, and the resolvers agree behind it. -/
theorem zeroIndexAddsNothing : Obligations.ZeroIndexAddsNothing := by
  refine fun d lo hi s => ⟨fun hx => ⟨?_, ?_⟩, fun hy => ?_, fun hx hy => ?_⟩ <;>
    apply exec_eq_of_resolve_eq
  · exact resolveZpX_of_x_zero d hx
  · exact resolveAbsX_of_x_zero lo hi hx
  · exact resolveAbsY_of_y_zero lo hi hy
  · exact resolveIndX_eq_resolveIndY_of_zero defaultParams d hx hy

end Sys2Proof.Machine
end

section
/-! Reset from any state, and what a burst does that begins on a byte with no handler (70_reset R200 to
R205). Settles O42, O47, O49 and O50. -/

namespace Sys2Proof.Machine

/-! ### The state after Reset -/

/-- Reset is the reset state with the five retained flags and CYC put back (70_reset R201, R203). -/
theorem resetCore_eq_reset_with (s : State) :
    resetCore s =
      { State.reset with
        flagC := s.flagC, flagZ := s.flagZ, flagB := s.flagB, flagO := s.flagO, flagN := s.flagN
        cyc := s.cyc } := rfl

/-- Settles O42: the reset state lists no cell, its CYC is 0 and it has no report. -/
theorem resetMeetsInvariant : Obligations.ResetMeetsInvariant :=
  ⟨inv_of_nonpos reset_wf le_rfl, reportTells_of_report_none rfl⟩

/-- Settles O47: the fields of the record update, and reads of the empty list. -/
theorem resetEffect : Obligations.ResetEffect :=
  fun s => ⟨rfl, rfl, rfl, rfl, rfl, rfl, rfl, rfl, memRead_resetCore s, rfl, rfl, rfl, rfl, rfl⟩

/-- Settles O49: the six retained fields are all that Reset takes from the state before it; N set and
Z clear are retained while A becomes zero. -/
theorem resetKeepsFiveFlagsAndCyc : Obligations.ResetKeepsFiveFlagsAndCyc := by
  refine ⟨fun s t hC hZ hB hO hN hcyc => ?_, fun s => ⟨rfl, rfl, rfl, rfl, rfl, rfl, rfl⟩,
    { State.reset with flagN := true }, rfl, rfl, rfl⟩
  rw [resetCore_eq_reset_with, resetCore_eq_reset_with, hC, hZ, hB, hO, hN, hcyc]

/-! ### A burst that begins on an unknown opcode -/

/-- The first iteration of a burst that begins on an unknown opcode is its last. -/
theorem executeBurst_of_unknown {P : Params} {budget : Int} (hbudget : 1 ≤ budget) {s : State}
    (hunknown : memRead s s.pc ∉ P.opcodes.bytes) :
    executeBurst P budget s =
      raiseUnknownOpcode (memRead s s.pc) s.pc (consume (beginBurst budget s)) := by
  obtain ⟨n, hn⟩ : ∃ n, budget.toNat = n + 1 := Nat.exists_eq_add_one.mpr (by omega)
  have hpos : 0 < (beginBurst budget s).cyc := hbudget
  have hfirst : burstStep P (beginBurst budget s) =
      raiseUnknownOpcode (memRead s s.pc) s.pc (consume (beginBurst budget s)) := by
    rw [burstStep_of_pos P hpos]
    exact iteration_of_unknown hunknown
  rw [executeBurst, hn, runBurst_succ, hfirst]
  exact runBurst_of_nonpos P n le_rfl

theorem zero_not_mem_defaultParams_bytes : 0x00#8 ∉ defaultParams.opcodes.bytes := by decide

/-- Settles O50: no default opcode is `0x00`, which is what memory holds at PC after Reset. -/
theorem zeroFilledMemoryEndsAtOnce : Obligations.ZeroFilledMemoryEndsAtOnce := by
  refine ⟨fun s budget hbudget => ?_, fun s hpos hzero => ?_⟩
  · have hzero : memRead (resetCore s) (resetCore s).pc = 0x00#8 := memRead_resetCore s _
    rw [executeBurst_of_unknown hbudget (hzero ▸ zero_not_mem_defaultParams_bytes), hzero]
    rfl
  · rw [step_of_pos hpos, iteration_of_unknown (hzero ▸ zero_not_mem_defaultParams_bytes), hzero]
    rfl

end Sys2Proof.Machine
end
